-- ==== Sys2Proof/Word.lean ====
section
/-! DEFINITION. The words of the 6408: bytes, times, data lines, and the index ranges of classes,
hold entries, transit slots and class-map entries. -/

namespace Sys2Proof

/-- A byte of the management window or of the I2C bus. -/
abbrev Byte := BitVec 8

/-- A value of the time count, or a duration in µs, both modulo 2^32 (R2, R3). -/
abbrev Time := BitVec 32

/-- A data line: 64 bytes (R1). -/
abbrev Line := BitVec 512

/-- A statistics counter, bin or maximum: 32 bits (R155, R156). -/
abbrev Counter := BitVec 32

/-- A traffic class, 0..15. -/
abbrev ClassId := Fin 16

/-- A hold entry's number, 0..191 (R18). -/
abbrev EntryId := Fin 192

/-- A transit slot's number, 0..127 (R118). -/
abbrev SlotId := Fin 128

/-- A match entry's number within its bank, 0..23 (R64). -/
abbrev MapIndex := Fin 24

end Sys2Proof
end

