-- ==== Sys2Proof/Config.lean ====
section
/-! DEFINITION. What the part fixes: capacities, identity codes and limits; and the one free value. -/

namespace Sys2Proof.Config

/-- Lines of the write data buffer (R30). -/
def bufferLines : Nat := 1024

/-- Hold entries in the pool (R18). -/
def poolEntries : Nat := 192

/-- Records the incident queue holds (R169). -/
def incidentCapacity : Nat := 32

/-- The largest sum of reservations the reservation-sum check passes (R80). -/
def reservationTotal : Nat := 192

/-- The least time in ns that RESET_N must be low to be taken as an assertion: 1 µs (R189). -/
def resetFilterNs : Nat := 1000

/-- The I2C target address with both straps low (R178). -/
def i2cBaseAddress : BitVec 7 := 0x58

/-- The identity field's vendor code (R191). -/
def vendorCode : BitVec 16 := 0x05C3

/-- The identity field's part code, 6408 (R191). -/
def partCode : BitVec 16 := 0x1908

/-- The identity field's revision (R191). -/
def revision : Byte := 0x01

/-- A FREE VALUE (DESIGN CHOICE, log entry 11): the detail of a refusal for which the spec states no detail
(QUIESCE refused ALREADY, RESUME refused NOT_QUIESCED), at the `n`-th time one is written. -/
opaque unstatedDetail : Nat → BitVec 16

end Sys2Proof.Config
end

