-- ==== Sys2Proof/Syntax.lean ====
section
/-! DEFINITION. The commands of the 6408, one constructor per row of spec/opcode_table.json, and the
records they carry. -/

namespace Sys2Proof

/-- The three request kinds (R5). -/
inductive Kind where
  | read
  | write
  | atomic
  deriving DecidableEq, Repr

/-- A fabric request as the fabric offers it (R4). The kind field carries a code and the length field
its raw value, as R198 lays the header out, because either may be out of range (R6). -/
structure FabricRequest where
  source : BitVec 6
  tag : BitVec 8
  kindCode : BitVec 3
  address : BitVec 40
  lengthField : BitVec 5
  data : List Line
  deriving DecidableEq, Repr

/-- The status of a memory response (R14). -/
inductive MemStatus where
  | okay
  | memfault
  deriving DecidableEq, Repr

/-- A memory response as memory offers it (R14). -/
structure MemResponse where
  tag : BitVec 10
  status : MemStatus
  data : List Line
  deriving DecidableEq, Repr

/-- The nine fields of a settings record (R76). -/
inductive SettingField where
  | mode
  | priority
  | budget
  | burst
  | period
  | deadline
  | guard
  | reservation
  | limit
  deriving DecidableEq, Repr

/-- A match entry of the class map (R64). -/
structure MatchEntry where
  enabled : Bool
  reads : Bool
  writes : Bool
  atomics : Bool
  sourceLow : BitVec 6
  sourceHigh : BitVec 6
  cls : ClassId
  pageLow : BitVec 28
  pageHigh : BitVec 28
  deriving DecidableEq, Repr

/-- The direction bit that follows an I2C address (R178). -/
inductive I2cDirection where
  | write
  | read
  deriving DecidableEq, Repr

/-- The commands. Each docstring names the row of the opcode table and the rule that governs it. -/
inductive Instr where
  /-- POWER_ON_RESET (R189). -/
  | powerOnReset
  /-- RESET_N_ASSERTION: RESET_N was low for `lowNs` ns (R189). -/
  | resetNAssertion (lowNs : Nat)
  /-- RESET_END: the pins ADDR1 and ADDR0 read `straps` as the reset ends (R189, R178). -/
  | resetEnd (straps : BitVec 2)
  /-- FABRIC_LINK_UP (R140). -/
  | fabricLinkUp
  /-- FABRIC_LINK_DOWN (R153). -/
  | fabricLinkDown
  /-- MEMORY_LINK_UP (R100). -/
  | memoryLinkUp
  /-- MEMORY_LINK_DOWN (R104). -/
  | memoryLinkDown
  /-- CREDIT_GRANT of `countMinusOne + 1` credits (R101); the message carries the count minus one (R198). -/
  | creditGrant (countMinusOne : BitVec 6)
  /-- CREDIT_RETURN of `countMinusOne + 1` credits (R102); the message carries the count minus one (R198). -/
  | creditReturn (countMinusOne : BitVec 6)
  /-- FABRIC_REQUEST_ARRIVAL: the fabric offers `req` (R58). -/
  | fabricRequestArrival (req : FabricRequest)
  /-- PLACEMENT_RETRY (R69). -/
  | placementRetry
  /-- INTAKE_STALL (R71). -/
  | intakeStall
  /-- PERIOD_BOUNDARY of class `cls` (R85). -/
  | periodBoundary (cls : ClassId)
  /-- FORWARDING: a choice of the arbiter and the forwarding it takes (R107, R109). -/
  | forwarding
  /-- SEND_COMPLETION (R105). -/
  | sendCompletion
  /-- DEADLINE_EXPIRY of slot `slot` (R122). -/
  | deadlineExpiry (slot : SlotId)
  /-- MEMORY_RESPONSE_TAKEN: memory offers `resp` (R14). -/
  | memoryResponseTaken (resp : MemResponse)
  /-- MATCH (R126). -/
  | matchResponse
  /-- QUIESCE_COMPLETION (R113). -/
  | quiesceCompletion
  /-- REAL_RESPONSE_LEAVES (R144). -/
  | realResponseLeaves
  /-- ANSWER_LEAVES (R148). -/
  | answerLeaves
  /-- AUTO_SNAPSHOT_EXPIRY (R166). -/
  | autoSnapshotExpiry
  /-- I2C_ADDRESS: a START or repeated START and the byte of address and direction (R178). -/
  | i2cAddress (address : BitVec 7) (direction : I2cDirection)
  /-- OFFSET_WRITE: the two offset bytes of a write transfer (R179). -/
  | offsetWrite (high low : Byte)
  /-- TRANSFER_END: a STOP or a repeated START (R182). -/
  | transferEnd
  /-- WINDOW_WRITE: one window byte of a write transfer (R182). -/
  | windowWrite (byte : Byte)
  /-- FIELD_LATCH: a read transfer sends the byte at the window offset (R180, R181). -/
  | fieldLatch
  /-- INCIDENT_HEAD_LATCH: a read of the incident head's first byte (R172). -/
  | incidentHeadLatch
  /-- INCIDENT_HEAD_REMOVE: a read of the incident head's last byte (R172). -/
  | incidentHeadRemove
  /-- STAGED_SETTING_WRITE of `value` to setting `field` of class `cls` (R78). -/
  | stagedSettingWrite (cls : ClassId) (field : SettingField) (value : BitVec 16)
  /-- SHADOW_ENTRY_WRITE of `value` to match entry `index` of the shadow bank (R66). -/
  | shadowEntryWrite (index : MapIndex) (value : MatchEntry)
  /-- DEFAULT_CLASS_WRITE of the byte `value`, bits 3:0 used (R65). -/
  | defaultClassWrite (value : Byte)
  /-- STALL_LIMIT_WRITE in µs (R71). -/
  | stallLimitWrite (value : BitVec 16)
  /-- AUTO_SNAPSHOT_INTERVAL_WRITE in ms (R166). -/
  | autoSnapshotIntervalWrite (value : BitVec 16)
  /-- HISTOGRAM_BOUNDARIES_WRITE of b1..b7 (R160). -/
  | histogramBoundariesWrite (values : Vector (BitVec 16) 7)
  /-- ALERT_FLAGS_WRITE: each bit written as one clears its latched flag (R175). -/
  | alertFlagsWrite (value : Byte)
  /-- ALERT_ENABLES_WRITE (R176). -/
  | alertEnablesWrite (value : Byte)
  /-- QUIESCE with the argument byte as written (R112, R184). -/
  | quiesce (argument : Byte)
  /-- RESUME with the argument byte as written (R114, R184). -/
  | resume (argument : Byte)
  /-- MAP_SWAP with the argument byte as written (R67, R184). -/
  | mapSwap (argument : Byte)
  /-- CLASS_COMMIT of the class in the argument byte (R81, R184). -/
  | classCommit (argument : Byte)
  /-- CLASS_APPLY of the class in the argument byte (R82, R184). -/
  | classApply (argument : Byte)
  /-- CLASS_DISCARD of the class in the argument byte (R34, R184). -/
  | classDiscard (argument : Byte)
  /-- PURGE with the argument byte as written (R134, R184). -/
  | purge (argument : Byte)
  /-- SNAPSHOT with the argument byte as written (R163, R184). -/
  | snapshot (argument : Byte)
  /-- SNAPSHOT_RELEASE with the argument byte as written (R164, R184). -/
  | snapshotRelease (argument : Byte)
  /-- STATS_CLEAR with the argument byte as written (R165, R184). -/
  | statsClear (argument : Byte)
  /-- INCIDENTS_CLEAR with the argument byte as written (R173, R184). -/
  | incidentsClear (argument : Byte)
  /-- DEFAULTS with the argument byte as written (R186, R187). -/
  | defaults (argument : Byte)
  /-- TIME_COUNT_ADVANCE (R2). -/
  | timeCountAdvance
  /-- UNKNOWN_COMMAND_CODE: a command register write whose code names no command (R184). -/
  | unknownCommandCode (code argument : Byte)
  deriving DecidableEq, Repr

end Sys2Proof
end

