-- ==== Sys2Proof/WellFormed.lean ====
section
/-! DEFINITION. Which commands a sender can make: the ranges the link records and the window fields
give their operands. Most ranges hold by the operands' types; the checks here are the rest. -/

namespace Sys2Proof

/-- True of the settings the staged block holds in one byte (R193). -/
def SettingField.isByte : SettingField → Bool
  | .budget | .burst | .period | .deadline => false
  | .mode | .priority | .guard | .reservation | .limit => true

/-- The link records and window fields can carry the command:
a fabric request 0..31 data lines and a memory response 0..16 (R198), a one-byte setting a value below
256 (R193), and UNKNOWN_COMMAND_CODE a code of 0 or 13..255 (R193). -/
def Instr.wellFormed : Instr → Bool
  | .fabricRequestArrival req => decide (req.data.length ≤ 31)
  | .memoryResponseTaken resp => decide (resp.data.length ≤ 16)
  | .stagedSettingWrite _ field value => !field.isByte || decide (value.toNat < 256)
  | .unknownCommandCode code _ => decide (code.toNat = 0 ∨ 13 ≤ code.toNat)
  | .powerOnReset | .resetNAssertion _ | .resetEnd _ | .fabricLinkUp | .fabricLinkDown
  | .memoryLinkUp | .memoryLinkDown | .creditGrant _ | .creditReturn _ | .placementRetry
  | .intakeStall | .periodBoundary _ | .forwarding | .sendCompletion | .deadlineExpiry _
  | .matchResponse | .quiesceCompletion | .realResponseLeaves | .answerLeaves
  | .autoSnapshotExpiry | .i2cAddress _ _ | .offsetWrite _ _ | .transferEnd | .windowWrite _
  | .fieldLatch | .incidentHeadLatch | .incidentHeadRemove | .shadowEntryWrite _ _
  | .defaultClassWrite _ | .stallLimitWrite _ | .autoSnapshotIntervalWrite _
  | .histogramBoundariesWrite _ | .alertFlagsWrite _ | .alertEnablesWrite _ | .quiesce _
  | .resume _ | .mapSwap _ | .classCommit _ | .classApply _ | .classDiscard _ | .purge _
  | .snapshot _ | .snapshotRelease _ | .statsClear _ | .incidentsClear _ | .defaults _
  | .timeCountAdvance => true

end Sys2Proof
end

