-- ==== Sys2Proof/Decode.lean ====
section
/-! DEFINITION. The host's word decoder. No row of spec/opcode_table.json gives its command any bits
(each row's "fields" is empty), so no word spells a command. -/

namespace Sys2Proof

/-- The command that a word of `nbits` bits spells by the table's bits: none, for every word, since the
table gives no row a bit. -/
def decodeTableWord (nbits w : Nat) : Option Instr :=
  match nbits, w with
  | _, _ => none

end Sys2Proof
end

