-- ==== Sys2Proof/Machine/State.lean ====
section
/-! DEFINITION. The state of the 6408 as plain data, block by block as the block diagram of
spec/00_scope.md names them, and its value right after reset. -/

namespace Sys2Proof.Machine

/-- The 6408 has no event that stops it: no meaning ends in a fault. -/
inductive Fault : Type
  deriving DecidableEq, Repr

/-- Why a command has no outcome. -/
inductive Refusal where
  /-- Raised by an arm of `exec` for a command that has no meaning yet (no arm is left so). Safe: the
  model stops where the hardware goes on. -/
  | notModelled (mnemonic : String)
  deriving DecidableEq, Repr

/-! ## Reset -/

/-- Whether the part is held in reset, and by which reset (R189). -/
inductive ResetPhase where
  | running
  | powerOn
  | pin
  deriving DecidableEq, Repr

/-- A reset's cause (R190). -/
inductive ResetCause where
  | powerOn
  | resetPin
  deriving DecidableEq, Repr

/-- The reset-cause record (R190). -/
structure CauseRecord where
  current : ResetCause
  previous : ResetCause
  count : BitVec 8
  deriving DecidableEq, Repr

/-! ## The intake and the class map -/

/-- The status a refused request is owed (R56). -/
inductive RefusalStatus where
  | malformed
  | tagReuse
  deriving DecidableEq, Repr

/-- The intake register in STALLED (R56). -/
structure StalledRequest where
  source : BitVec 6
  tag : BitVec 8
  cls : ClassId
  kind : Kind
  address : BitVec 40
  length : Nat
  arrival : Time
  data : List Line
  stallStart : Time
  reported : Bool
  deriving DecidableEq, Repr

/-- The intake state with what the register holds in it (R56). -/
inductive IntakeState where
  | empty
  | stalled (req : StalledRequest)
  | rejecting (source : BitVec 6) (tag : BitVec 8) (owed : RefusalStatus)
  deriving DecidableEq, Repr

/-- The intake: its register and the intake stall limit (R56, R71). -/
structure Intake where
  register : IntakeState
  stallLimit : BitVec 16
  deriving DecidableEq, Repr

/-- The name of a class-map bank (R64). -/
inductive Bank where
  | a
  | b
  deriving DecidableEq, Repr

/-- The class map (R64). -/
structure ClassMap where
  bankA : Vector MatchEntry 24
  bankB : Vector MatchEntry 24
  active : Bank
  defaultClass : ClassId
  deriving DecidableEq, Repr

/-! ## The hold pool -/

/-- The record of a hold entry that is not FREE (R18). The data lines are the entry's lines in the write
data buffer (R30). -/
structure HoldRecord where
  source : BitVec 6
  tag : BitVec 8
  cls : ClassId
  kind : Kind
  address : BitVec 40
  length : Nat
  arrival : Time
  data : List Line
  waitList : List EntryId
  waitedForBudget : Bool
  deriving DecidableEq, Repr

/-- A hold entry; a FREE entry holds no record (R18). -/
inductive HoldEntry where
  | free
  | queued (r : HoldRecord)
  | cancelling (r : HoldRecord)
  deriving DecidableEq, Repr

/-- The hold pool: its entries and its class queues, oldest first (R18, R22). -/
structure HoldPool where
  entries : Vector HoldEntry 192
  queues : Vector (List EntryId) 16
  deriving DecidableEq, Repr

/-! ## The budget unit -/

/-- A settings record as its window fields hold it (R76, R193). -/
structure Settings where
  mode : Byte
  priority : Byte
  budget : BitVec 16
  burst : BitVec 16
  period : BitVec 16
  deadline : BitVec 16
  guard : Byte
  reservation : Byte
  limit : Byte
  deriving DecidableEq, Repr

/-- The budget unit's state for one class (R76, R84, R86). -/
structure ClassBudget where
  staged : Settings
  active : Settings
  pending : Bool
  account : Int
  lastBoundary : Time
  deriving DecidableEq, Repr

/-! ## The forwarding arbiter and the memory port -/

/-- The quiesce state (R112). -/
inductive QuiesceState where
  | opened
  | quiescing
  | quiesced
  deriving DecidableEq, Repr

/-- A memory request on the request channel (R12). -/
structure MemRequest where
  source : BitVec 6
  kind : Kind
  address : BitVec 40
  length : Nat
  tag : BitVec 10
  data : List Line
  deriving DecidableEq, Repr

/-- The forwarding arbiter: quiesce state, one round-robin pointer per priority level, and the request
channel, idle (none) or sending (R105, R108, R112). -/
structure Arbiter where
  quiesce : QuiesceState
  pointers : Vector ClassId 4
  channel : Option MemRequest
  deriving DecidableEq, Repr

/-- The memory link state (R99). -/
inductive MemLink where
  | down
  | waitGrant
  | up
  deriving DecidableEq, Repr

/-- The memory port: link state and credits (R99). -/
structure MemPort where
  link : MemLink
  granted : Nat
  available : Nat
  deriving DecidableEq, Repr

/-! ## The transit table -/

/-- The record of a transit slot that is not FREE (R118). -/
structure SlotRecord where
  source : BitVec 6
  tag : BitVec 8
  cls : ClassId
  kind : Kind
  address : BitVec 40
  length : Nat
  arrival : Time
  forwardTime : Time
  deadline : BitVec 16
  guard : Byte
  deriving DecidableEq, Repr

/-- A slot's state with the fields present in it (R118). An EXPIRED slot owes TIMEOUT or nothing; a LOST
slot always owes LOST. -/
inductive SlotState where
  | free
  | inFlight (r : SlotRecord) (deadlineTime : Option Time) (overdue : Bool)
  | expired (r : SlotRecord) (owes : Bool)
  | lost (r : SlotRecord)
  deriving DecidableEq, Repr

/-- A transit slot: its epoch and its state (R118). -/
structure Slot where
  epoch : BitVec 3
  state : SlotState
  deriving DecidableEq, Repr

/-- The transit table. `order` lists the slots in the order of their latest allocations, so that the
IN_FLIGHT ones stand in it in the order of their forwarding events (R136). -/
structure TransitTable where
  slots : Vector Slot 128
  order : List SlotId
  deriving DecidableEq, Repr

/-! ## Response return -/

/-- The fabric link state (R140). -/
inductive FabricLink where
  | down
  | up
  deriving DecidableEq, Repr

/-- How a matched real response came about (R143). -/
inductive Origin where
  | completion
  | supersede
  deriving DecidableEq, Repr

/-- A matched real response in the return register (R143). -/
structure RealResponse where
  source : BitVec 6
  tag : BitVec 8
  status : MemStatus
  data : List Line
  cls : ClassId
  arrival : Time
  origin : Origin
  deriving DecidableEq, Repr

/-- The return register (R142). -/
inductive ReturnRegister where
  | empty
  | unmatched (resp : MemResponse)
  | matched (r : RealResponse)
  deriving DecidableEq, Repr

/-- An owner that owes the fabric one answer (R145). -/
inductive Owner where
  | intake
  | entry (e : EntryId)
  | slot (k : SlotId)
  deriving DecidableEq, Repr

/-- The response channel: idle, or offering the real response or the list head's answer (R141). -/
inductive ResponseChannel where
  | idle
  | real
  | answer
  deriving DecidableEq, Repr

/-- The turn indicator (R150). -/
inductive Turn where
  | real
  | answer
  deriving DecidableEq, Repr

/-- The response return block (R140, R141, R142, R145, R150). -/
structure ResponseReturn where
  link : FabricLink
  channel : ResponseChannel
  register : ReturnRegister
  answers : List Owner
  turn : Turn
  deriving DecidableEq, Repr

/-! ## The statistics unit -/

/-- A class record (R155): eleven counters, two maxima, eight bins and the saturated flag. -/
structure ClassStats where
  forwardedRequests : Counter
  forwardedLines : Counter
  completedInTime : Counter
  overdueCompleted : Counter
  budgetWaits : Counter
  orderWaits : Counter
  stallTime : Counter
  timeouts : Counter
  lateResponses : Counter
  lateDelivered : Counter
  cancelled : Counter
  maxHold : Counter
  maxMemory : Counter
  bins : Vector Counter 8
  saturated : Bool
  deriving DecidableEq, Repr

/-- The record of global counters (R156). -/
structure GlobalStats where
  malformed : Counter
  tagReuse : Counter
  stray : Counter
  creditExcess : Counter
  lostOnFabricDown : Counter
  lostOnMemoryDown : Counter
  snapshotsMissed : Counter
  saturated : Bool
  deriving DecidableEq, Repr

/-- The snapshot bank's state (R162). -/
inductive BankState where
  | empty
  | locked
  deriving DecidableEq, Repr

/-- The snapshot bank (R162). -/
structure SnapshotBank where
  state : BankState
  classes : Vector ClassStats 16
  globals : GlobalStats
  time : Time
  interval : Time
  deriving DecidableEq, Repr

/-- The statistics unit (R155, R156, R160, R162, R166). -/
structure Statistics where
  live : Vector ClassStats 16
  globals : GlobalStats
  bank : SnapshotBank
  intervalStart : Time
  boundaries : Vector (BitVec 16) 7
  autoInterval : BitVec 16
  timerStart : Time
  deriving DecidableEq, Repr

/-! ## Incidents and alerts -/

/-- The fourteen incident kinds (R170). -/
inductive IncidentKind where
  | deadlineWatched
  | deadlineAnswered
  | lateResponse
  | strayResponse
  | tagReuse
  | malformed
  | intakeStall
  | creditExcess
  | configRejected
  | snapshotMissed
  | fabricLinkUp
  | fabricLinkDown
  | memoryLinkUp
  | memoryLinkDown
  deriving DecidableEq, Repr

/-- What the raising block gives an incident: kind, optional fields and detail (R170). The detail is
the four bytes of R196. -/
structure IncidentBody where
  kind : IncidentKind
  cls : Option ClassId
  pair : Option (BitVec 6 × BitVec 8)
  slot : Option SlotId
  address : Option (BitVec 40)
  detail : BitVec 32
  deriving DecidableEq, Repr

/-- An incident record (R170). -/
structure Incident where
  sequence : BitVec 16
  time : Time
  body : IncidentBody
  gap : BitVec 16
  deriving DecidableEq, Repr

/-- The incident queue (R169). -/
structure IncidentQueue where
  records : List Incident
  dropCount : BitVec 16
  sequence : BitVec 16
  headMark : Bool
  deriving DecidableEq, Repr

/-- The four alert enables (R176). -/
structure AlertEnables where
  incident : Bool
  snapshot : Bool
  quiesce : Bool
  saturation : Bool
  deriving DecidableEq, Repr

/-- The alert block: the three latched flags and the enables (R175, R176). The flag INCIDENT follows the
queue and is computed from it. -/
structure Alerts where
  snapshot : Bool
  quiesce : Bool
  saturation : Bool
  enables : AlertEnables
  deriving DecidableEq, Repr

/-! ## The management port -/

/-- The identity of a window field (R181, R183). -/
inductive Field where
  | identity
  | defaultClass
  | stallLimit
  | autoInterval
  | alertEnables
  | boundaries
  | alertFlags
  | command
  | commandStatus
  | resetCause
  | globalStatus
  | queueLength
  | dropCount
  | incidentHead
  | activeBank
  | shadowEntry (e : MapIndex)
  | activeEntry (e : MapIndex)
  | staged (c : ClassId) (f : SettingField)
  | activeSettings (c : ClassId)
  | classStatus (c : ClassId)
  | liveCounter (c : ClassId) (k : Fin 21)
  | liveGlobal (k : Fin 7)
  | liveSaturated
  | bankState
  | bankTime
  | bankInterval
  | bankCounter (c : ClassId) (k : Fin 21)
  | bankGlobal (k : Fin 7)
  | bankSaturated
  | slotView (k : SlotId)
  deriving DecidableEq, Repr

/-- The I2C target's place in a transfer (R178, R179, R180). -/
inductive BusState where
  | idle
  | awaitOffset
  | writing
  | reading
  deriving DecidableEq, Repr

/-- The state field of the command status (R185). -/
inductive CommandState where
  | idle
  | running
  | done
  | refused
  deriving DecidableEq, Repr

/-- The reason field of the command status (R185). -/
inductive Reason where
  | none
  | badArgument
  | invalidSettings
  | bankLocked
  | bankEmpty
  | notQuiesced
  | already
  | notEmpty
  deriving DecidableEq, Repr

/-- The command status (R185). -/
structure CommandStatus where
  state : CommandState
  code : Byte
  argument : Byte
  reason : Reason
  detail : BitVec 16
  busyRefusals : BitVec 8
  busyCode : Byte
  deriving DecidableEq, Repr

/-- The management port (R178 to R185). `ack` and `sent` are what the last bus event left on SDA: whether
the port acknowledged, and the byte it sent. -/
structure Port where
  straps : BitVec 2
  bus : BusState
  ack : Bool
  sent : Byte
  offset : BitVec 16
  latch : Option (Field × List Byte)
  assembly : Option (Field × List Byte)
  commandCode : Byte
  commandArgument : Byte
  status : CommandStatus
  deriving DecidableEq, Repr

/-! ## The whole state -/

/-- The state of the 6408, with two fields of the model's own: how many free values have been drawn
(`Config.unstatedDetail`), and the queue of commands that wait, first in first out. -/
structure State where
  phase : ResetPhase
  time : Time
  intake : Intake
  map : ClassMap
  pool : HoldPool
  budget : Vector ClassBudget 16
  arbiter : Arbiter
  mem : MemPort
  transit : TransitTable
  ret : ResponseReturn
  stats : Statistics
  incidents : IncidentQueue
  alerts : Alerts
  port : Port
  cause : CauseRecord
  draws : Nat
  pending : List Instr
  deriving DecidableEq, Repr

/-! ## Reset values -/

/-- A settings record after reset (R76). -/
def Settings.reset : Settings :=
  { mode := 0, priority := 0, budget := 0, burst := 0, period := 1000, deadline := 0, guard := 0
    reservation := 0, limit := 192 }

/-- The budget unit's state for a class after reset and after DEFAULTS, with its period timer started at
`start` (R98). -/
def ClassBudget.reset (start : Time) : ClassBudget :=
  { staged := Settings.reset, active := Settings.reset, pending := false, account := 0
    lastBoundary := start }

/-- A match entry after reset (R64). -/
def resetMatchEntry : MatchEntry :=
  { enabled := false, reads := false, writes := false, atomics := false, sourceLow := 0
    sourceHigh := 0, cls := 0, pageLow := 0, pageHigh := 0 }

/-- The class map after reset and after DEFAULTS (R64). -/
def ClassMap.reset : ClassMap :=
  { bankA := Vector.replicate 24 resetMatchEntry, bankB := Vector.replicate 24 resetMatchEntry
    active := .a, defaultClass := 0 }

/-- The hold pool with every entry FREE and every class queue empty (R18, R22). -/
def HoldPool.empty : HoldPool :=
  { entries := Vector.replicate 192 .free, queues := Vector.replicate 16 [] }

/-- A live class record with nothing counted (R155). -/
def ClassStats.zero : ClassStats :=
  { forwardedRequests := 0, forwardedLines := 0, completedInTime := 0, overdueCompleted := 0
    budgetWaits := 0, orderWaits := 0, stallTime := 0, timeouts := 0, lateResponses := 0
    lateDelivered := 0, cancelled := 0, maxHold := 0, maxMemory := 0
    bins := Vector.replicate 8 0, saturated := false }

/-- The global counters with nothing counted (R156). -/
def GlobalStats.zero : GlobalStats :=
  { malformed := 0, tagReuse := 0, stray := 0, creditExcess := 0, lostOnFabricDown := 0
    lostOnMemoryDown := 0, snapshotsMissed := 0, saturated := false }

/-- The histogram boundaries after reset and after DEFAULTS (R160). -/
def resetBoundaries : Vector (BitVec 16) 7 := #v[1, 2, 4, 8, 16, 32, 64]

/-- The enables after reset and after DEFAULTS (R176). -/
def AlertEnables.clear : AlertEnables :=
  { incident := false, snapshot := false, quiesce := false, saturation := false }

/-- The command status after reset (R185). -/
def CommandStatus.reset : CommandStatus :=
  { state := .idle, code := 0, argument := 0, reason := .none, detail := 0, busyRefusals := 0
    busyCode := 0 }

/-- The machine right after a power-on reset has ended: every field at the value the spec gives it
after reset. DESIGN CHOICE (unsafe): the sampled straps, the timer start, and what SDA last carried, to
which the spec gives no reset value, are 0 (log entries 8, 9, 10). -/
def State.reset : State :=
  { phase := .running
    time := 0
    intake := { register := .empty, stallLimit := 0 }
    map := ClassMap.reset
    pool := HoldPool.empty
    budget := Vector.replicate 16 (ClassBudget.reset 0)
    arbiter := { quiesce := .opened, pointers := Vector.replicate 4 0, channel := none }
    mem := { link := .down, granted := 0, available := 0 }
    transit := { slots := Vector.replicate 128 { epoch := 0, state := .free }, order := [] }
    ret := { link := .down, channel := .idle, register := .empty, answers := [], turn := .real }
    stats :=
      { live := Vector.replicate 16 ClassStats.zero
        globals := GlobalStats.zero
        bank :=
          { state := .empty, classes := Vector.replicate 16 ClassStats.zero
            globals := GlobalStats.zero, time := 0, interval := 0 }
        intervalStart := 0
        boundaries := resetBoundaries
        autoInterval := 0
        timerStart := 0 }
    incidents := { records := [], dropCount := 0, sequence := 0, headMark := false }
    alerts :=
      { snapshot := false, quiesce := false, saturation := false, enables := AlertEnables.clear }
    port :=
      { straps := 0, bus := .idle, ack := false, sent := 0, offset := 0, latch := none
        assembly := none, commandCode := 0, commandArgument := 0, status := CommandStatus.reset }
    cause := { current := .powerOn, previous := .powerOn, count := 0 }
    draws := 0
    pending := [] }

end Sys2Proof.Machine
end

