-- ==== Sys2Proof/Machine/Flags.lean ====
section
/-! DEFINITION. Everything the part raises for software: saturating counters and their saturated flags,
maxima, incidents, the alert flags and ALERT_N. -/

namespace Sys2Proof.Machine

/-! ## Time -/

/-- The elapsed time from a stored time to the present, modulo 2^32 (R3). -/
def State.elapsed (s : State) (start : Time) : Nat := (s.time - start).toNat

/-- The elapsed time from `start` has reached `limit` µs (R3). DESIGN CHOICE (safe): what fell due at an
earlier time and was not taken then is still due (log entry 4). -/
def State.reached (s : State) (start : Time) (limit : Nat) : Bool := decide (limit ≤ s.elapsed start)

/-! ## Saturating counters -/

/-- Add `n` to a counter; an increase beyond 2^32 − 1 leaves it at 2^32 − 1 (R157). -/
def satAdd (c : Counter) (n : Nat) : Counter :=
  if c.toNat + n < 2 ^ 32 then BitVec.ofNat 32 (c.toNat + n) else BitVec.allOnes 32

/-- The increase by `n` would carry the counter beyond 2^32 − 1: a saturation (R157). -/
def saturates (c : Counter) (n : Nat) : Bool := decide (2 ^ 32 ≤ c.toNat + n)

/-- The saturating counters and bins of a class record (R155). -/
inductive ClassCounter where
  | forwardedRequests
  | forwardedLines
  | completedInTime
  | overdueCompleted
  | budgetWaits
  | orderWaits
  | stallTime
  | timeouts
  | lateResponses
  | lateDelivered
  | cancelled
  | bin (i : Fin 8)
  deriving DecidableEq, Repr

/-- The value of a class counter. -/
def ClassStats.get (r : ClassStats) : ClassCounter → Counter
  | .forwardedRequests => r.forwardedRequests
  | .forwardedLines => r.forwardedLines
  | .completedInTime => r.completedInTime
  | .overdueCompleted => r.overdueCompleted
  | .budgetWaits => r.budgetWaits
  | .orderWaits => r.orderWaits
  | .stallTime => r.stallTime
  | .timeouts => r.timeouts
  | .lateResponses => r.lateResponses
  | .lateDelivered => r.lateDelivered
  | .cancelled => r.cancelled
  | .bin i => r.bins[i]

/-- The record with one class counter replaced. -/
def ClassStats.put (r : ClassStats) (k : ClassCounter) (v : Counter) : ClassStats :=
  match k with
  | .forwardedRequests => { r with forwardedRequests := v }
  | .forwardedLines => { r with forwardedLines := v }
  | .completedInTime => { r with completedInTime := v }
  | .overdueCompleted => { r with overdueCompleted := v }
  | .budgetWaits => { r with budgetWaits := v }
  | .orderWaits => { r with orderWaits := v }
  | .stallTime => { r with stallTime := v }
  | .timeouts => { r with timeouts := v }
  | .lateResponses => { r with lateResponses := v }
  | .lateDelivered => { r with lateDelivered := v }
  | .cancelled => { r with cancelled := v }
  | .bin i => { r with bins := r.bins.set i v }

/-- The record with `n` added to one counter, its saturated flag set at a saturation (R157). -/
def ClassStats.bump (r : ClassStats) (k : ClassCounter) (n : Nat) : ClassStats :=
  { r.put k (satAdd (r.get k) n) with saturated := r.saturated || saturates (r.get k) n }

/-- A counting event of a class: the counter rises, and a saturation sets the alert flag SATURATION
(R155, R157). -/
def State.countClass (s : State) (c : ClassId) (k : ClassCounter) (n : Nat) : State :=
  { s with
    stats.live := s.stats.live.set c (s.stats.live[c].bump k n)
    alerts.saturation := s.alerts.saturation || saturates (s.stats.live[c].get k) n }

/-- The global counters (R156). -/
inductive GlobalCounter where
  | malformed
  | tagReuse
  | stray
  | creditExcess
  | lostOnFabricDown
  | lostOnMemoryDown
  | snapshotsMissed
  deriving DecidableEq, Repr

/-- The value of a global counter. -/
def GlobalStats.get (r : GlobalStats) : GlobalCounter → Counter
  | .malformed => r.malformed
  | .tagReuse => r.tagReuse
  | .stray => r.stray
  | .creditExcess => r.creditExcess
  | .lostOnFabricDown => r.lostOnFabricDown
  | .lostOnMemoryDown => r.lostOnMemoryDown
  | .snapshotsMissed => r.snapshotsMissed

/-- The record with one global counter replaced. -/
def GlobalStats.put (r : GlobalStats) (k : GlobalCounter) (v : Counter) : GlobalStats :=
  match k with
  | .malformed => { r with malformed := v }
  | .tagReuse => { r with tagReuse := v }
  | .stray => { r with stray := v }
  | .creditExcess => { r with creditExcess := v }
  | .lostOnFabricDown => { r with lostOnFabricDown := v }
  | .lostOnMemoryDown => { r with lostOnMemoryDown := v }
  | .snapshotsMissed => { r with snapshotsMissed := v }

/-- The record with `n` added to one counter, its saturated flag set at a saturation (R157). -/
def GlobalStats.bump (r : GlobalStats) (k : GlobalCounter) (n : Nat) : GlobalStats :=
  { r.put k (satAdd (r.get k) n) with saturated := r.saturated || saturates (r.get k) n }

/-- A counting event of no class (R156, R157). -/
def State.countGlobal (s : State) (k : GlobalCounter) (n : Nat) : State :=
  { s with
    stats.globals := s.stats.globals.bump k n
    alerts.saturation := s.alerts.saturation || saturates (s.stats.globals.get k) n }

/-! ## Maxima -/

/-- The greater of a maximum held and a time offered (R158). -/
def maxTime (held offered : Time) : Time := if held.toNat < offered.toNat then offered else held

/-- Offer a hold time to the class's maximum (R158). -/
def State.offerHold (s : State) (c : ClassId) (t : Time) : State :=
  { s with
    stats.live := s.stats.live.set c
      { s.stats.live[c] with maxHold := maxTime s.stats.live[c].maxHold t } }

/-- Offer a memory time to the class's maximum (R158). -/
def State.offerMemory (s : State) (c : ClassId) (t : Time) : State :=
  { s with
    stats.live := s.stats.live.set c
      { s.stats.live[c] with maxMemory := maxTime s.stats.live[c].maxMemory t } }

/-! ## The histogram -/

/-- The bin a total time falls in: how many of the boundaries in force it reaches (R159). -/
def histogramBin (boundaries : Vector (BitVec 16) 7) (t : Nat) : Fin 8 :=
  Fin.ofNat 8 (boundaries.toList.countP (fun b => decide (b.toNat ≤ t)))

/-! ## Incidents -/

/-- Raise an incident: it takes the sequence counter, and is recorded with the drop count as its gap, or
dropped and counted when the queue holds 32 records (R171). The queue takes it in the event that raises
it (log entry 5). -/
def State.raise (s : State) (body : IncidentBody) : State :=
  if s.incidents.records.length < Config.incidentCapacity then
    { s with
      incidents.records := s.incidents.records ++
        [{ sequence := s.incidents.sequence, time := s.time, body := body
           gap := s.incidents.dropCount }]
      incidents.dropCount := 0
      incidents.sequence := s.incidents.sequence + 1 }
  else
    { s with
      incidents.dropCount :=
        if s.incidents.dropCount = 65535 then 65535 else s.incidents.dropCount + 1
      incidents.sequence := s.incidents.sequence + 1 }

/-- An incident that carries a kind and a detail only (R170). -/
def plainIncident (kind : IncidentKind) (detail : BitVec 32) : IncidentBody :=
  { kind := kind, cls := none, pair := none, slot := none, address := none, detail := detail }

/-- A detail of bytes, byte 0 first (R196). -/
def detailBytes (b0 b1 b2 : Nat) : BitVec 32 := BitVec.ofNat 32 (b0 + 256 * b1 + 65536 * b2)

/-- CREDIT_EXCESS: the global counter rises and the incident carries the case and the count the message
carried (R102, R196). -/
def State.creditExcess (s : State) (case count : Nat) : State :=
  (s.countGlobal .creditExcess 1).raise (plainIncident .creditExcess (detailBytes case count 0))

/-! ## Alert flags -/

/-- The flag INCIDENT: set exactly while the queue length is above 0 (R175). -/
def State.incidentFlag (s : State) : Bool := !s.incidents.records.isEmpty

/-- ALERT_N is driven low: some flag is set whose enable is set (R176). -/
def State.alertLow (s : State) : Bool :=
  (s.incidentFlag && s.alerts.enables.incident) || (s.alerts.snapshot && s.alerts.enables.snapshot)
    || (s.alerts.quiesce && s.alerts.enables.quiesce)
    || (s.alerts.saturation && s.alerts.enables.saturation)

end Sys2Proof.Machine
end

