-- ==== Sys2Proof/Machine/Ops.lean ====
section
/-! DEFINITION. The shared operations of the 6408: lines and overlap, the hold pool and its placement
test, the settings and period boundaries, the class head conditions, the transit table, the answer list
and the response channel, quiesce completion, and the intake's stall. -/

namespace Sys2Proof.Machine

/-- Apply an effect only while the part is not held in reset: in reset the ports answer nothing and the
time count stays at 0 (R189). -/
def State.whenRunning (s : State) (effect : State → State) : State :=
  match s.phase with
  | .running => effect s
  | .powerOn | .pin => s

/-! ## Lines, pages and overlap -/

/-- The start page of an address (R1). -/
def startPage (a : BitVec 40) : BitVec 28 := BitVec.ofNat 28 (a.toNat / 4096)

/-- The line index of the start line within its page, 0..63 (R1). -/
def lineIndex (a : BitVec 40) : Nat := a.toNat / 64 % 64

/-- The last line index of a request (R41). -/
def lastLineIndex (a : BitVec 40) (length : Nat) : Nat := lineIndex a + length - 1

/-- The kind writes, for ordering: WRITE or ATOMIC (R5, R40). -/
def kindWrites : Kind → Bool
  | .read => false
  | .write | .atomic => true

/-- Two held requests overlap: their pages are equal, the line index of each is no greater than the last
line index of the other, and one of them is a WRITE or ATOMIC (R40, R41). -/
def HoldRecord.overlaps (r q : HoldRecord) : Bool :=
  (kindWrites r.kind || kindWrites q.kind) && decide (startPage r.address = startPage q.address)
    && decide (lineIndex r.address ≤ lastLineIndex q.address q.length)
    && decide (lineIndex q.address ≤ lastLineIndex r.address r.length)

/-! ## Hold entries -/

/-- The record of an entry that is not FREE (R18). -/
def HoldEntry.record? : HoldEntry → Option HoldRecord
  | .free => none
  | .queued r | .cancelling r => some r

/-- The entry is FREE. -/
def HoldEntry.isFree : HoldEntry → Bool
  | .free => true
  | .queued _ | .cancelling _ => false

/-- The entry is QUEUED. -/
def HoldEntry.isQueued : HoldEntry → Bool
  | .queued _ => true
  | .free | .cancelling _ => false

/-- The entry is QUEUED or CANCELLING and of class `c` (R25). -/
def HoldEntry.ofClass (c : ClassId) (e : HoldEntry) : Bool :=
  match e.record? with
  | some r => decide (r.cls = c)
  | none => false

/-- The lines of the write data buffer an entry holds (R30). -/
def HoldEntry.lines (e : HoldEntry) : Nat :=
  match e.record? with
  | some r => r.data.length
  | none => 0

/-- The entry holds the source and tag (R60). -/
def HoldEntry.hasPair (source : BitVec 6) (tag : BitVec 8) (e : HoldEntry) : Bool :=
  match e.record? with
  | some r => decide (r.source = source ∧ r.tag = tag)
  | none => false

/-- Remove `i` from the wait list of a QUEUED entry (R44). -/
def HoldEntry.dropMember (i : EntryId) : HoldEntry → HoldEntry
  | .queued r => .queued { r with waitList := r.waitList.filter (fun j => decide (j ≠ i)) }
  | .free => .free
  | .cancelling r => .cancelling r

/-- Replace one hold entry. -/
def State.setEntry (s : State) (e : EntryId) (v : HoldEntry) : State :=
  { s with pool.entries := s.pool.entries.set e v }

/-- Replace one class queue. -/
def State.setQueue (s : State) (c : ClassId) (q : List EntryId) : State :=
  { s with pool.queues := s.pool.queues.set c q }

/-- Remove an entry from every wait list in which it appears (R33 step 4, R34 step 2). -/
def State.dropFromWaitLists (s : State) (i : EntryId) : State :=
  { s with pool.entries := s.pool.entries.map (HoldEntry.dropMember i) }

/-- The wait list of an entry; empty unless it is QUEUED. -/
def State.waitListOf (s : State) (e : EntryId) : List EntryId :=
  match s.pool.entries[e] with
  | .queued r => r.waitList
  | .free | .cancelling _ => []

/-! ## Occupancy and the placement test -/

/-- occ(c): the entries of class c that are QUEUED or CANCELLING (R25). -/
def State.occupancy (s : State) (c : ClassId) : Nat :=
  s.pool.entries.toList.countP (HoldEntry.ofClass c)

/-- The entries that are not FREE (R25). -/
def State.poolOccupancy (s : State) : Nat := s.pool.entries.toList.countP (fun e => !e.isFree)

/-- The free entries (R25). -/
def State.freeEntries (s : State) : Nat := Config.poolEntries - s.poolOccupancy

/-- The lines in use in the write data buffer (R32). -/
def State.usedLines (s : State) : Nat := (s.pool.entries.toList.map HoldEntry.lines).sum

/-- The free lines of the write data buffer (R30). -/
def State.freeLines (s : State) : Nat := Config.bufferLines - s.usedLines

/-- The reservation of a class's active settings (R26). -/
def State.reservation (s : State) (c : ClassId) : Nat := s.budget[c].active.reservation.toNat

/-- The limit of a class's active settings (R26). -/
def State.limit (s : State) (c : ClassId) : Nat := s.budget[c].active.limit.toNat

/-- The shortfall of a class (R27). -/
def State.shortfall (s : State) (c : ClassId) : Nat := s.reservation c - s.occupancy c

/-- The unreserved count, which may be negative (R27). -/
def State.unreserved (s : State) : Int :=
  (s.freeEntries : Int) - (((List.finRange 16).map s.shortfall).sum : Nat)

/-- The lowest-numbered FREE entry (R20). -/
def State.lowestFreeEntry (s : State) : Option EntryId :=
  (List.finRange 192).find? (fun e => s.pool.entries[e].isFree)

/-- The placement test for a request of class `c` and kind `kind` with `lines` data lines (R27). -/
def State.placementTest (s : State) (c : ClassId) (kind : Kind) (lines : Nat) : Bool :=
  decide (s.occupancy c < s.limit c) && decide (0 < s.freeEntries)
    && (decide (s.occupancy c < s.reservation c) || decide (0 < s.unreserved))
    && (!kindWrites kind || decide (lines ≤ s.freeLines))

/-- The wait list of a request at its placement: every QUEUED entry that overlaps it (R42), in
increasing number. -/
def State.waitListFor (s : State) (r : HoldRecord) : List EntryId :=
  (List.finRange 192).filter (fun i =>
    match s.pool.entries[i] with
    | .queued q => r.overlaps q
    | .free | .cancelling _ => false)

/-- Place a request in entry `e`: the entry becomes QUEUED with its wait list, joins the tail of its class
queue, and a non-empty wait list is counted (R20, R42, R47). -/
def State.placeIn (s : State) (e : EntryId) (r : HoldRecord) : State :=
  let wait := s.waitListFor r
  let placed := (s.setEntry e (.queued { r with waitList := wait, waitedForBudget := false })).setQueue
    r.cls (s.pool.queues[r.cls] ++ [e])
  placed.countClass r.cls .orderWaits (if wait = [] then 0 else 1)

/-! ## Settings, accounts and head conditions -/

/-- The mode is METER (R192). Only the listed codes are live (R191); any other reads as PASS
(log entry 13). -/
def Settings.isMeter (r : Settings) : Bool := decide (r.mode = 1)

/-- The mode is GATE (R192). -/
def Settings.isGate (r : Settings) : Bool := decide (r.mode = 2)

/-- The priority as a level 0..3 (R94). -/
def Settings.level (r : Settings) : Fin 4 := Fin.ofNat 4 r.priority.toNat

/-- The cap: budget plus burst (R76). -/
def Settings.cap (r : Settings) : Int := (r.budget.toNat : Int) + r.burst.toNat

/-- Replace the budget unit's state for one class. -/
def State.setBudget (s : State) (c : ClassId) (b : ClassBudget) : State :=
  { s with budget := s.budget.set c b }

/-- The class head: the oldest QUEUED entry of its queue (R22). -/
def State.head? (s : State) (c : ClassId) : Option EntryId := s.pool.queues[c].head?

/-- The six head conditions (R95). -/
inductive HeadCondition where
  | idle
  | orderWait
  | gated
  | budgetWait
  | resourceWait
  | ready
  deriving DecidableEq, Repr

/-- The slot is FREE. -/
def SlotState.isFree : SlotState → Bool
  | .free => true
  | .inFlight _ _ _ | .expired _ _ | .lost _ => false

/-- The slot is IN_FLIGHT. -/
def SlotState.isInFlight : SlotState → Bool
  | .inFlight _ _ _ => true
  | .free | .expired _ _ | .lost _ => false

/-- The slot is EXPIRED. -/
def SlotState.isExpired : SlotState → Bool
  | .expired _ _ => true
  | .free | .inFlight _ _ _ | .lost _ => false

/-- The slot is LOST. -/
def SlotState.isLost : SlotState → Bool
  | .lost _ => true
  | .free | .inFlight _ _ _ | .expired _ _ => false

/-- The lowest-numbered FREE slot (R120). -/
def State.lowestFreeSlot (s : State) : Option SlotId :=
  (List.finRange 128).find? (fun k => s.transit.slots[k].state.isFree)

/-- The number of slots whose state satisfies `p`. -/
def State.countSlots (s : State) (p : SlotState → Bool) : Nat :=
  s.transit.slots.toList.countP (fun k => p k.state)

/-- All four global forwarding conditions hold (R106). -/
def State.forwardingOpen (s : State) : Bool :=
  decide (s.arbiter.quiesce = .opened) && decide (s.mem.link = .up) && decide (1 ≤ s.mem.available)
    && s.lowestFreeSlot.isSome

/-- The condition of a class head, by the tests of R95 in order. -/
def State.headCondition (s : State) (c : ClassId) : HeadCondition :=
  match s.head? c with
  | none => .idle
  | some e =>
    if s.waitListOf e ≠ [] then .orderWait
    else if s.budget[c].active.isGate then .gated
    else if s.budget[c].active.isMeter && decide (s.budget[c].account ≤ 0) then .budgetWait
    else if !s.forwardingOpen then .resourceWait
    else .ready

/-- Derive one class's head condition anew: a head first found in BUDGET_WAIT sets its
waited-for-budget flag and is counted (R97). -/
def State.noteBudgetWait (s : State) (c : ClassId) : State :=
  match s.headCondition c, s.head? c with
  | .budgetWait, some e =>
    match s.pool.entries[e] with
    | .queued r =>
      if r.waitedForBudget then s
      else (s.setEntry e (.queued { r with waitedForBudget := true })).countClass c .budgetWaits 1
    | .free | .cancelling _ => s
  | _, _ => s

/-- Derive every class's head condition anew (R96, R97). -/
def State.noteBudgetWaits (s : State) : State := (List.finRange 16).foldl State.noteBudgetWait s

/-- The account after replenishment under the active settings `r`: clamped to the cap, then raised by the
budget, at most to the cap (R85 steps 2 and 3). -/
def replenish (r : Settings) (account : Int) : Int :=
  min (min account r.cap + r.budget.toNat) r.cap

/-- A period boundary of a class at the present time. The staged copy becomes active if the pending flag
is set or the boundary is forced; the account is clamped and replenished; the timer restarts (R85, R82). -/
def ClassBudget.boundary (b : ClassBudget) (forced : Bool) (now : Time) : ClassBudget :=
  let active := if b.pending || forced then b.staged else b.active
  { staged := b.staged
    active := active
    pending := false
    account := replenish active b.account
    lastBoundary := now }

/-- Take a period boundary of class `c`, natural or forced (R82, R85), and derive the head conditions
anew. -/
def State.takeBoundary (s : State) (c : ClassId) (forced : Bool) : State :=
  (s.setBudget c (s.budget[c].boundary forced s.time)).noteBudgetWaits

/-- The time to a class's next boundary in µs; 0 when the boundary is due (R84). -/
def State.timeToBoundary (s : State) (c : ClassId) : Nat :=
  s.budget[c].active.period.toNat - s.elapsed s.budget[c].lastBoundary

/-! ## The transit table -/

/-- Replace one slot's state; the epoch is kept (R119). -/
def State.setSlotState (s : State) (k : SlotId) (v : SlotState) : State :=
  { s with transit.slots := s.transit.slots.set k { s.transit.slots[k] with state := v } }

/-- Change every slot's state by `f`; the epochs are kept (R119). -/
def State.mapSlots (s : State) (f : SlotState → SlotState) : State :=
  { s with transit.slots := s.transit.slots.map (fun k => { k with state := f k.state }) }

/-- A quiesce completes: in QUIESCING with no IN_FLIGHT slot the state becomes QUIESCED, the command status
shows DONE with code and detail kept, and the alert flag QUIESCE is set (R113). -/
def State.completeQuiesce (s : State) : State :=
  match s.arbiter.quiesce with
  | .quiescing =>
    if s.countSlots SlotState.isInFlight = 0 then
      { s with
        arbiter.quiesce := .quiesced
        port.status.state := .done
        alerts.quiesce := true }
    else s
  | .opened | .quiesced => s

/-! ## The tag check -/

/-- The kind of owner a tag check finds (R63). -/
inductive TagOwner where
  | holdEntry
  | slot (k : SlotId)
  | responseReturn
  deriving DecidableEq, Repr

/-- The slot's request is an open obligation for the source and tag: IN_FLIGHT, or EXPIRED or LOST and
owing an answer (R60). -/
def SlotState.hasPair (source : BitVec 6) (tag : BitVec 8) : SlotState → Bool
  | .inFlight r _ _ => decide (r.source = source ∧ r.tag = tag)
  | .expired r owes => owes && decide (r.source = source ∧ r.tag = tag)
  | .lost r => decide (r.source = source ∧ r.tag = tag)
  | .free => false

/-- The return register holds a matched real response for the source and tag (R60). -/
def ReturnRegister.hasPair (source : BitVec 6) (tag : BitVec 8) : ReturnRegister → Bool
  | .matched r => decide (r.source = source ∧ r.tag = tag)
  | .empty | .unmatched _ => false

/-- The owner of the open obligation for a source and tag, if any (R60). At most one owner holds it (R61);
where a state no run reaches holds more, the order is the table's of R60 (log entry 13). -/
def State.tagOwner? (s : State) (source : BitVec 6) (tag : BitVec 8) : Option TagOwner :=
  if s.pool.entries.toList.any (HoldEntry.hasPair source tag) then some .holdEntry
  else
    match (List.finRange 128).find? (fun k => s.transit.slots[k].state.hasPair source tag) with
    | some k => some (.slot k)
    | none => if s.ret.register.hasPair source tag then some .responseReturn else none

/-! ## The answer list and the response channel -/

/-- Owner references join the tail of the answer list (R145). -/
def State.joinAnswers (s : State) (owners : List Owner) : State :=
  { s with ret.answers := s.ret.answers ++ owners }

/-- A real response waits: the return register is MATCHED (R150). -/
def ReturnRegister.isMatched : ReturnRegister → Bool
  | .matched _ => true
  | .empty | .unmatched _ => false

/-- The response channel's choice (R150): idle, with the fabric link UP, it offers what waits; when both
kinds wait, the kind the turn indicator names. -/
def State.chooseOffer (s : State) : State :=
  match s.ret.channel, s.ret.link with
  | .idle, .up =>
    match s.ret.register.isMatched, s.ret.answers.isEmpty with
    | true, true => { s with ret.channel := .real }
    | false, false => { s with ret.channel := .answer }
    | true, false =>
      { s with ret.channel := match s.ret.turn with | .real => .real | .answer => .answer }
    | false, true => s
  | _, _ => s

/-- The seven statuses of a fabric response (R9). -/
inductive FabricStatus where
  | okay
  | memfault
  | cancelled
  | timeout
  | malformed
  | tagReuse
  | lost
  deriving DecidableEq, Repr

/-- A fabric response (R8). -/
structure FabricResponse where
  source : BitVec 6
  tag : BitVec 8
  status : FabricStatus
  data : List Line
  deriving DecidableEq, Repr

/-- The answer an owner owes, built from the owner; none for an owner that owes nothing (R10, R147). -/
def State.answerOf (s : State) : Owner → Option FabricResponse
  | .intake =>
    match s.intake.register with
    | .rejecting source tag .malformed => some ⟨source, tag, .malformed, []⟩
    | .rejecting source tag .tagReuse => some ⟨source, tag, .tagReuse, []⟩
    | .empty | .stalled _ => none
  | .entry e =>
    match s.pool.entries[e] with
    | .cancelling r => some ⟨r.source, r.tag, .cancelled, []⟩
    | .free | .queued _ => none
  | .slot k =>
    match s.transit.slots[k].state with
    | .expired r true => some ⟨r.source, r.tag, .timeout, []⟩
    | .lost r => some ⟨r.source, r.tag, .lost, []⟩
    | .expired _ false | .free | .inFlight _ _ _ => none

/-- The response on the response channel, if it is offering (R141, R147). -/
def State.offered? (s : State) : Option FabricResponse :=
  match s.ret.channel with
  | .idle => none
  | .real =>
    match s.ret.register with
    | .matched r =>
      some ⟨r.source, r.tag, (match r.status with | .okay => .okay | .memfault => .memfault), r.data⟩
    | .empty | .unmatched _ => none
  | .answer =>
    match s.ret.answers with
    | o :: _ => s.answerOf o
    | [] => none

/-! ## The intake -/

/-- Replace the intake register. -/
def State.setIntake (s : State) (r : IntakeState) : State := { s with intake.register := r }

/-- The record a request is placed with: its wait list and flag are set at the placement (R20). -/
def StalledRequest.toRecord (q : StalledRequest) : HoldRecord :=
  { source := q.source, tag := q.tag, cls := q.cls, kind := q.kind, address := q.address
    length := q.length, arrival := q.arrival, data := q.data, waitList := []
    waitedForBudget := false }

/-- Offer a request to the pool: where the placement test passes, it is placed in the lowest-numbered FREE
entry and the head conditions are derived anew; none where the test fails (R20, R27). -/
def State.tryPlace (s : State) (r : HoldRecord) : Option State :=
  if s.placementTest r.cls r.kind r.data.length then
    match s.lowestFreeEntry with
    | some e => some (s.placeIn e r).noteBudgetWaits
    | none => none
  else none

/-- The end of a stall episode: the intake is EMPTY and the duration is added to the stall-time counter of
the request's class (R72). -/
def State.endStall (s : State) (q : StalledRequest) : State :=
  (s.setIntake .empty).countClass q.cls .stallTime (s.elapsed q.stallStart)

/-- Offer a STALLED request to the pool again: if the test passes it is placed with its original arrival
time and the episode ends (R69). -/
def State.retryPlacement (s : State) : State :=
  match s.intake.register with
  | .stalled q =>
    match s.tryPlace q.toRecord with
    | some t => t.endStall q
    | none => s
  | .empty | .rejecting _ _ _ => s

/-- The comparison of a stall with the intake stall limit: once per episode, when the limit is not 0 and
the elapsed time has reached it, INTAKE_STALL is raised and the stall-reported flag is set (R71). -/
def State.reportStall (s : State) : State :=
  match s.intake.register with
  | .stalled q =>
    if s.intake.stallLimit ≠ 0 ∧ q.reported = false
        ∧ s.reached q.stallStart s.intake.stallLimit.toNat = true then
      (s.setIntake (.stalled { q with reported := true })).raise
        { kind := .intakeStall, cls := some q.cls, pair := some (q.source, q.tag), slot := none
          address := some q.address, detail := BitVec.ofNat 32 (s.elapsed q.stallStart) }
    else s
  | .empty | .rejecting _ _ _ => s

/-! ## Snapshots -/

/-- Every live record is zeroed and the interval starts at the present time (R163 steps 3 and 4, R165). -/
def State.zeroLive (s : State) : State :=
  { s with
    stats.live := Vector.replicate 16 ClassStats.zero
    stats.globals := GlobalStats.zero
    stats.intervalStart := s.time }

/-- A snapshot taken: the live records are copied to the bank and zeroed, the bank is LOCKED and the alert
flag SNAPSHOT is set (R163). -/
def State.takeSnapshot (s : State) : State :=
  { s.zeroLive with
    stats.bank :=
      { state := .locked, classes := s.stats.live, globals := s.stats.globals, time := s.time
        interval := s.time - s.stats.intervalStart }
    alerts.snapshot := true }

end Sys2Proof.Machine
end

