-- ==== Sys2Proof/Machine/Operands.lean ====
section
/-! DEFINITION. Every encoding of the manual: codes, the records on the two links, the management window's
map, and the bytes each window field reads as and is written from. -/

namespace Sys2Proof.Machine

/-! ## Bytes -/

/-- The `n` low bytes of a number, least significant first (little-endian fields, R191). -/
def leBytes (n v : Nat) : List Byte := (List.range n).map (fun i => BitVec.ofNat 8 (v / 256 ^ i))

/-- The number that little-endian bytes spell. -/
def ofLeBytes (bytes : List Byte) : Nat := bytes.foldr (fun b n => b.toNat + 256 * n) 0

/-- A signed value of four bytes in two's complement (R191). -/
def signedBytes (v : Int) : List Byte := leBytes 4 (BitVec.ofInt 32 v).toNat

/-- A bit as 0 or 1. -/
def bit (b : Bool) : Nat := if b then 1 else 0

/-! ## Codes (R192) -/

/-- The kind a request's kind field names; none for an unknown code (R198). -/
def kindOfCode (code : BitVec 3) : Option Kind :=
  match code.toNat with
  | 1 => some .read
  | 2 => some .write
  | 3 => some .atomic
  | _ => none

/-- The code of a kind. -/
def kindCode : Kind → Nat
  | .read => 1
  | .write => 2
  | .atomic => 3

/-- The code of a head condition. -/
def headConditionCode : HeadCondition → Nat
  | .idle => 0
  | .orderWait => 1
  | .gated => 2
  | .budgetWait => 3
  | .resourceWait => 4
  | .ready => 5

/-- The code of a fabric link state. -/
def fabricLinkCode : FabricLink → Nat
  | .down => 0
  | .up => 1

/-- The code of a memory link state. -/
def memLinkCode : MemLink → Nat
  | .down => 0
  | .waitGrant => 1
  | .up => 2

/-- The code of an intake state. -/
def intakeCode : IntakeState → Nat
  | .empty => 0
  | .stalled _ => 1
  | .rejecting _ _ _ => 2

/-- The code of a quiesce state. -/
def quiesceCode : QuiesceState → Nat
  | .opened => 0
  | .quiescing => 1
  | .quiesced => 2

/-- The code of a slot state. -/
def slotCode : SlotState → Nat
  | .free => 0
  | .inFlight _ _ _ => 1
  | .expired _ _ => 2
  | .lost _ => 3

/-- The code of a snapshot bank state. -/
def bankStateCode : BankState → Nat
  | .empty => 0
  | .locked => 1

/-- The code of a class-map bank's name. -/
def bankCode : Bank → Nat
  | .a => 0
  | .b => 1

/-- The code of a reset cause. -/
def causeCode : ResetCause → Nat
  | .powerOn => 1
  | .resetPin => 2

/-- The code of a command state (R194). -/
def commandStateCode : CommandState → Nat
  | .idle => 0
  | .running => 1
  | .done => 2
  | .refused => 3

/-- The code of a reason (R194). -/
def reasonCode : Reason → Nat
  | .none => 0
  | .badArgument => 1
  | .invalidSettings => 2
  | .bankLocked => 3
  | .bankEmpty => 4
  | .notQuiesced => 5
  | .already => 6
  | .notEmpty => 7

/-- The code of a fabric response's status (R198). -/
def fabricStatusCode : FabricStatus → Nat
  | .okay => 0
  | .memfault => 1
  | .cancelled => 2
  | .timeout => 3
  | .malformed => 4
  | .tagReuse => 5
  | .lost => 6

/-- The code of an incident kind (R196). -/
def incidentCode : IncidentKind → Nat
  | .deadlineWatched => 1
  | .deadlineAnswered => 2
  | .lateResponse => 3
  | .strayResponse => 4
  | .tagReuse => 5
  | .malformed => 6
  | .intakeStall => 7
  | .creditExcess => 8
  | .configRejected => 9
  | .snapshotMissed => 10
  | .fabricLinkUp => 11
  | .fabricLinkDown => 12
  | .memoryLinkUp => 13
  | .memoryLinkDown => 14

/-! ## Link records (R198) -/

/-- The fabric request that a 64-bit header and the lines after it carry. -/
def fabricRequestOf (header : BitVec 64) (data : List Line) : FabricRequest :=
  { source := header.extractLsb' 56 6, tag := header.extractLsb' 48 8
    kindCode := header.extractLsb' 45 3, address := header.extractLsb' 0 40
    lengthField := header.extractLsb' 40 5, data := data }

/-- The 24-bit header of a fabric response. -/
def fabricResponseHeader (r : FabricResponse) : BitVec 24 :=
  BitVec.ofNat 24 (r.source.toNat + 2 ^ 6 * r.tag.toNat + 2 ^ 14 * fabricStatusCode r.status)

/-- The 64-bit header of a memory request. -/
def memRequestHeader (r : MemRequest) : BitVec 64 :=
  BitVec.ofNat 64 (r.address.toNat + 2 ^ 40 * r.length + 2 ^ 45 * kindCode r.kind
    + 2 ^ 48 * r.tag.toNat + 2 ^ 58 * r.source.toNat)

/-- The memory response that a 16-bit header and the lines after it carry. -/
def memResponseOf (header : BitVec 16) (data : List Line) : MemResponse :=
  { tag := header.extractLsb' 0 10
    status := if header.extractLsb' 10 1 = 0 then .okay else .memfault
    data := data }

/-- The command that an 8-bit credit message spells. -/
def creditMessageOf (message : Byte) : Instr :=
  if message.extractLsb' 6 1 = 0 then .creditGrant (message.extractLsb' 0 6)
  else .creditReturn (message.extractLsb' 0 6)

/-- The slot a downstream tag names: its upper seven bits (R13). -/
def tagSlot (tag : BitVec 10) : SlotId := Fin.ofNat 128 (tag.toNat / 8)

/-- The epoch a downstream tag carries: its lower three bits (R13). -/
def tagEpoch (tag : BitVec 10) : BitVec 3 := BitVec.ofNat 3 tag.toNat

/-- The downstream tag of a slot and an epoch: slot times 8 plus epoch (R120). -/
def downstreamTag (k : SlotId) (epoch : BitVec 3) : BitVec 10 :=
  BitVec.ofNat 10 (k.val * 8 + epoch.toNat)

/-! ## Configuration layouts (R193) -/

/-- The offset of a setting in its class's block. -/
def settingOffset : SettingField → Nat
  | .mode => 0x0
  | .priority => 0x1
  | .budget => 0x2
  | .burst => 0x4
  | .period => 0x6
  | .deadline => 0x8
  | .guard => 0xA
  | .reservation => 0xB
  | .limit => 0xC

/-- The bytes of a setting's field. -/
def settingSize : SettingField → Nat
  | .mode | .priority | .guard | .reservation | .limit => 1
  | .budget | .burst | .period | .deadline => 2

/-- The value of a setting. -/
def Settings.get (r : Settings) : SettingField → Nat
  | .mode => r.mode.toNat
  | .priority => r.priority.toNat
  | .budget => r.budget.toNat
  | .burst => r.burst.toNat
  | .period => r.period.toNat
  | .deadline => r.deadline.toNat
  | .guard => r.guard.toNat
  | .reservation => r.reservation.toNat
  | .limit => r.limit.toNat

/-- The record with one setting written; a one-byte setting takes the low byte. -/
def Settings.put (r : Settings) (f : SettingField) (v : BitVec 16) : Settings :=
  match f with
  | .mode => { r with mode := v.setWidth 8 }
  | .priority => { r with priority := v.setWidth 8 }
  | .budget => { r with budget := v }
  | .burst => { r with burst := v }
  | .period => { r with period := v }
  | .deadline => { r with deadline := v }
  | .guard => { r with guard := v.setWidth 8 }
  | .reservation => { r with reservation := v.setWidth 8 }
  | .limit => { r with limit := v.setWidth 8 }

/-- The 14 bytes of a settings record. -/
def settingsBytes (r : Settings) : List Byte :=
  [r.mode, r.priority] ++ leBytes 2 r.budget.toNat ++ leBytes 2 r.burst.toNat
    ++ leBytes 2 r.period.toNat ++ leBytes 2 r.deadline.toNat
    ++ [r.guard, r.reservation, r.limit, 0]

/-- The 12 bytes of a match entry. -/
def matchEntryBytes (m : MatchEntry) : List Byte :=
  leBytes 1 (bit m.enabled + 2 * bit m.reads + 4 * bit m.writes + 8 * bit m.atomics)
    ++ leBytes 1 m.sourceLow.toNat ++ leBytes 1 m.sourceHigh.toNat ++ leBytes 1 m.cls.val
    ++ leBytes 4 m.pageLow.toNat ++ leBytes 4 m.pageHigh.toNat

/-- The byte at a place in a list of bytes; 0 past its end. -/
def byteAt (bytes : List Byte) (i : Nat) : Byte := bytes.getD i 0

/-- The match entry that 12 bytes spell; unused bits are taken as 0. -/
def matchEntryOf (bytes : List Byte) : MatchEntry :=
  { enabled := (byteAt bytes 0).getLsbD 0
    reads := (byteAt bytes 0).getLsbD 1
    writes := (byteAt bytes 0).getLsbD 2
    atomics := (byteAt bytes 0).getLsbD 3
    sourceLow := (byteAt bytes 1).setWidth 6
    sourceHigh := (byteAt bytes 2).setWidth 6
    cls := Fin.ofNat 16 (byteAt bytes 3).toNat
    pageLow := BitVec.ofNat 28 (ofLeBytes ((bytes.drop 4).take 4))
    pageHigh := BitVec.ofNat 28 (ofLeBytes ((bytes.drop 8).take 4)) }

/-- The seven boundaries that 14 bytes spell, b1 first. -/
def boundariesOf (bytes : List Byte) : Vector (BitVec 16) 7 :=
  Vector.ofFn (fun i => BitVec.ofNat 16 (ofLeBytes ((bytes.drop (2 * i.val)).take 2)))

/-- The alert enables that a byte spells (R192). -/
def enablesOf (b : Byte) : AlertEnables :=
  { incident := b.getLsbD 0, snapshot := b.getLsbD 1, quiesce := b.getLsbD 2
    saturation := b.getLsbD 3 }

/-! ## The window map -/

/-- The bytes of a field. -/
def Field.size : Field → Nat
  | .identity => 5
  | .defaultClass | .alertEnables | .alertFlags | .queueLength | .activeBank | .bankState => 1
  | .stallLimit | .autoInterval | .command | .dropCount => 2
  | .boundaries | .activeSettings _ => 14
  | .commandStatus => 8
  | .resetCause => 3
  | .globalStatus => 16
  | .incidentHead => 23
  | .shadowEntry _ | .activeEntry _ => 12
  | .staged _ f => settingSize f
  | .classStatus _ => 9
  | .liveCounter _ _ | .liveGlobal _ | .liveSaturated | .bankTime | .bankInterval
  | .bankCounter _ _ | .bankGlobal _ | .bankSaturated => 4
  | .slotView _ => 29

/-- The offset of a field's first byte. -/
def Field.base : Field → Nat
  | .identity => 0x0000
  | .defaultClass => 0x0010
  | .stallLimit => 0x0012
  | .autoInterval => 0x0014
  | .alertEnables => 0x0016
  | .boundaries => 0x0020
  | .alertFlags => 0x0030
  | .command => 0x0040
  | .commandStatus => 0x0048
  | .resetCause => 0x0050
  | .globalStatus => 0x0060
  | .queueLength => 0x0080
  | .dropCount => 0x0082
  | .incidentHead => 0x0090
  | .activeBank => 0x0100
  | .shadowEntry e => 0x0200 + 16 * e.val
  | .activeEntry e => 0x0400 + 16 * e.val
  | .staged c f => 0x0800 + 16 * c.val + settingOffset f
  | .activeSettings c => 0x0900 + 16 * c.val
  | .classStatus c => 0x0A00 + 16 * c.val
  | .liveCounter c k => 0x1000 + 128 * c.val + 4 * k.val
  | .liveGlobal k => 0x1800 + 4 * k.val
  | .liveSaturated => 0x1820
  | .bankState => 0x2F00
  | .bankTime => 0x2F04
  | .bankInterval => 0x2F08
  | .bankCounter c k => 0x3000 + 128 * c.val + 4 * k.val
  | .bankGlobal k => 0x3800 + 4 * k.val
  | .bankSaturated => 0x3820
  | .slotView k => 0x4000 + 32 * k.val

/-- The field may be written (R183). -/
def Field.writable : Field → Bool
  | .defaultClass | .stallLimit | .autoInterval | .alertEnables | .boundaries | .alertFlags
  | .command | .shadowEntry _ | .staged _ _ => true
  | .identity | .commandStatus | .resetCause | .globalStatus | .queueLength | .dropCount
  | .incidentHead | .activeBank | .activeEntry _ | .activeSettings _ | .classStatus _
  | .liveCounter _ _ | .liveGlobal _ | .liveSaturated | .bankState | .bankTime | .bankInterval
  | .bankCounter _ _ | .bankGlobal _ | .bankSaturated | .slotView _ => false

/-- The setting whose field holds, or stands last before, an offset of a class's staged block. -/
def settingAt (n : Nat) : SettingField :=
  if n < 0x1 then .mode else if n < 0x2 then .priority else if n < 0x4 then .budget
  else if n < 0x6 then .burst else if n < 0x8 then .period else if n < 0xA then .deadline
  else if n < 0xB then .guard else if n < 0xC then .reservation else .limit

/-- The field that stands at or last before an offset of the window map. -/
def nearestField (n : Nat) : Field :=
  if n < 0x0010 then .identity
  else if n < 0x0012 then .defaultClass
  else if n < 0x0014 then .stallLimit
  else if n < 0x0016 then .autoInterval
  else if n < 0x0020 then .alertEnables
  else if n < 0x0030 then .boundaries
  else if n < 0x0040 then .alertFlags
  else if n < 0x0048 then .command
  else if n < 0x0050 then .commandStatus
  else if n < 0x0060 then .resetCause
  else if n < 0x0080 then .globalStatus
  else if n < 0x0082 then .queueLength
  else if n < 0x0090 then .dropCount
  else if n < 0x0100 then .incidentHead
  else if n < 0x0200 then .activeBank
  else if n < 0x0400 then .shadowEntry (Fin.ofNat 24 (min 23 ((n - 0x0200) / 16)))
  else if n < 0x0800 then .activeEntry (Fin.ofNat 24 (min 23 ((n - 0x0400) / 16)))
  else if n < 0x0900 then .staged (Fin.ofNat 16 ((n - 0x0800) / 16)) (settingAt (n % 16))
  else if n < 0x0A00 then .activeSettings (Fin.ofNat 16 ((n - 0x0900) / 16))
  else if n < 0x1000 then .classStatus (Fin.ofNat 16 (min 15 ((n - 0x0A00) / 16)))
  else if n < 0x1800 then
    .liveCounter (Fin.ofNat 16 ((n - 0x1000) / 128)) (Fin.ofNat 21 (min 20 (n % 128 / 4)))
  else if n < 0x1820 then .liveGlobal (Fin.ofNat 7 (min 6 ((n - 0x1800) / 4)))
  else if n < 0x2F00 then .liveSaturated
  else if n < 0x2F04 then .bankState
  else if n < 0x2F08 then .bankTime
  else if n < 0x3000 then .bankInterval
  else if n < 0x3800 then
    .bankCounter (Fin.ofNat 16 ((n - 0x3000) / 128)) (Fin.ofNat 21 (min 20 (n % 128 / 4)))
  else if n < 0x3820 then .bankGlobal (Fin.ofNat 7 (min 6 ((n - 0x3800) / 4)))
  else if n < 0x4000 then .bankSaturated
  else .slotView (Fin.ofNat 128 (min 127 ((n - 0x4000) / 32)))

/-- The field an offset belongs to and the byte's place in it; none outside the window (R191). -/
def fieldAt (offset : BitVec 16) : Option (Field × Nat) :=
  let f := nearestField offset.toNat
  if f.base ≤ offset.toNat ∧ offset.toNat < f.base + f.size then
    some (f, offset.toNat - f.base)
  else none

/-! ## What a field reads as -/

/-- The class-record value at place `k` of R195: eleven counters, the two maxima, eight bins. -/
def classValue (r : ClassStats) (k : Fin 21) : Counter :=
  match k.val with
  | 0 => r.forwardedRequests
  | 1 => r.forwardedLines
  | 2 => r.completedInTime
  | 3 => r.overdueCompleted
  | 4 => r.budgetWaits
  | 5 => r.orderWaits
  | 6 => r.stallTime
  | 7 => r.timeouts
  | 8 => r.lateResponses
  | 9 => r.lateDelivered
  | 10 => r.cancelled
  | 11 => r.maxHold
  | 12 => r.maxMemory
  | n => r.bins[Fin.ofNat 8 (n - 13)]

/-- The global counter at place `k` of R195. -/
def globalValue (r : GlobalStats) (k : Fin 7) : Counter :=
  match k.val with
  | 0 => r.malformed
  | 1 => r.tagReuse
  | 2 => r.stray
  | 3 => r.creditExcess
  | 4 => r.lostOnFabricDown
  | 5 => r.lostOnMemoryDown
  | _ => r.snapshotsMissed

/-- The saturated-flags field: bit c of class record c, bit 16 of the global record (R195). -/
def saturatedFlags (classes : Vector ClassStats 16) (globals : GlobalStats) : Nat :=
  ((List.finRange 16).map (fun c => bit classes[c].saturated * 2 ^ c.val)).sum
    + bit globals.saturated * 2 ^ 16

/-- The bank that is active (R64). -/
def ClassMap.activeBank (m : ClassMap) : Vector MatchEntry 24 :=
  match m.active with
  | .a => m.bankA
  | .b => m.bankB

/-- The bank that is the shadow (R64). -/
def ClassMap.shadowBank (m : ClassMap) : Vector MatchEntry 24 :=
  match m.active with
  | .a => m.bankB
  | .b => m.bankA

/-- The command status (R194). -/
def commandStatusBytes (c : CommandStatus) : List Byte :=
  leBytes 1 (commandStateCode c.state) ++ [c.code, c.argument] ++ leBytes 1 (reasonCode c.reason)
    ++ leBytes 2 c.detail.toNat ++ [c.busyRefusals, c.busyCode]

/-- The global status (R194). -/
def globalStatusBytes (s : State) : List Byte :=
  leBytes 1 (fabricLinkCode s.ret.link) ++ leBytes 1 (memLinkCode s.mem.link)
    ++ leBytes 1 s.mem.granted ++ leBytes 1 s.mem.available
    ++ leBytes 1 (intakeCode s.intake.register) ++ leBytes 1 s.poolOccupancy
    ++ leBytes 2 s.freeLines ++ leBytes 1 (s.countSlots SlotState.isFree)
    ++ leBytes 1 (s.countSlots SlotState.isInFlight) ++ leBytes 1 (s.countSlots SlotState.isExpired)
    ++ leBytes 1 (s.countSlots SlotState.isLost) ++ leBytes 2 s.ret.answers.length
    ++ leBytes 1 (quiesceCode s.arbiter.quiesce) ++ [0]

/-- The class status (R194). -/
def classStatusBytes (s : State) (c : ClassId) : List Byte :=
  leBytes 1 (s.occupancy c) ++ leBytes 1 (headConditionCode (s.headCondition c))
    ++ signedBytes s.budget[c].account ++ leBytes 2 (s.timeToBoundary c)
    ++ leBytes 1 (bit s.budget[c].pending)

/-- The record part of a slot's view, from offset 0x04 to 0x18 (R197). -/
def slotRecordBytes (r : SlotRecord) : List Byte :=
  leBytes 1 r.source.toNat ++ [r.tag] ++ leBytes 1 r.cls.val ++ leBytes 1 (kindCode r.kind)
    ++ leBytes 1 r.length ++ leBytes 5 r.address.toNat ++ leBytes 4 r.arrival.toNat
    ++ leBytes 4 r.forwardTime.toNat ++ leBytes 2 r.deadline.toNat ++ [r.guard]

/-- The view of one slot (R197). DESIGN CHOICE (unsafe): where the deadline time is not present, in an IN_FLIGHT
slot of deadline 0 and in EXPIRED and LOST, its four bytes read 0, which neither R139 nor R197 says
(log entry 18). -/
def slotViewBytes (k : Slot) : List Byte :=
  let head (flags status : Nat) : List Byte :=
    leBytes 1 (slotCode k.state) ++ leBytes 1 k.epoch.toNat ++ leBytes 1 flags ++ leBytes 1 status
  match k.state with
  | .free => head 0 0 ++ List.replicate 25 0
  | .inFlight r deadlineTime overdue =>
    head (bit deadlineTime.isSome + 2 * bit overdue) 0 ++ slotRecordBytes r
      ++ leBytes 4 (deadlineTime.getD 0).toNat
  | .expired r owes =>
    head (4 * bit owes) (if owes then fabricStatusCode .timeout else 0) ++ slotRecordBytes r
      ++ leBytes 4 0
  | .lost r => head 4 (fabricStatusCode .lost) ++ slotRecordBytes r ++ leBytes 4 0

/-- The incident head: a record, or kind NONE with every field 0 where the queue is empty (R172, R196). -/
def incidentBytes : Option Incident → List Byte
  | none => List.replicate 23 0
  | some i =>
    leBytes 2 i.sequence.toNat ++ leBytes 4 i.time.toNat ++ leBytes 1 (incidentCode i.body.kind)
      ++ leBytes 1 (bit i.body.cls.isSome + 2 * bit i.body.pair.isSome + 4 * bit i.body.slot.isSome
          + 8 * bit i.body.address.isSome)
      ++ leBytes 1 (i.body.cls.map Fin.val |>.getD 0)
      ++ leBytes 1 (i.body.pair.map (fun p => p.1.toNat) |>.getD 0)
      ++ leBytes 1 (i.body.pair.map (fun p => p.2.toNat) |>.getD 0)
      ++ leBytes 1 (i.body.slot.map Fin.val |>.getD 0)
      ++ leBytes 5 (i.body.address.map (fun a => a.toNat) |>.getD 0)
      ++ leBytes 4 i.body.detail.toNat ++ leBytes 2 i.gap.toNat

/-- The alert flags field (R175, R192). -/
def alertFlagsByte (s : State) : Nat :=
  bit s.incidentFlag + 2 * bit s.alerts.snapshot + 4 * bit s.alerts.quiesce
    + 8 * bit s.alerts.saturation

/-- The alert enables field (R176, R192). -/
def enablesByte (e : AlertEnables) : Nat :=
  bit e.incident + 2 * bit e.snapshot + 4 * bit e.quiesce + 8 * bit e.saturation

/-- The bytes a field reads as, from its owner's state (R181, R183). DESIGN CHOICE (unsafe): the identity field
holds its three codes in the order R191 names them, vendor in bytes 0 and 1, part in 2 and 3, revision in 4,
for which the spec has no layout table (log entry 20). -/
def State.fieldBytes (s : State) : Field → List Byte
  | .identity =>
    leBytes 2 Config.vendorCode.toNat ++ leBytes 2 Config.partCode.toNat ++ [Config.revision]
  | .defaultClass => leBytes 1 s.map.defaultClass.val
  | .stallLimit => leBytes 2 s.intake.stallLimit.toNat
  | .autoInterval => leBytes 2 s.stats.autoInterval.toNat
  | .alertEnables => leBytes 1 (enablesByte s.alerts.enables)
  | .boundaries => s.stats.boundaries.toList.flatMap (fun b => leBytes 2 b.toNat)
  | .alertFlags => leBytes 1 (alertFlagsByte s)
  | .command => [s.port.commandCode, s.port.commandArgument]
  | .commandStatus => commandStatusBytes s.port.status
  | .resetCause =>
    leBytes 1 (causeCode s.cause.current) ++ leBytes 1 (causeCode s.cause.previous)
      ++ [s.cause.count]
  | .globalStatus => globalStatusBytes s
  | .queueLength => leBytes 1 s.incidents.records.length
  | .dropCount => leBytes 2 s.incidents.dropCount.toNat
  | .incidentHead => incidentBytes s.incidents.records.head?
  | .activeBank => leBytes 1 (bankCode s.map.active)
  | .shadowEntry e => matchEntryBytes s.map.shadowBank[e]
  | .activeEntry e => matchEntryBytes s.map.activeBank[e]
  | .staged c f => leBytes (settingSize f) (s.budget[c].staged.get f)
  | .activeSettings c => settingsBytes s.budget[c].active
  | .classStatus c => classStatusBytes s c
  | .liveCounter c k => leBytes 4 (classValue s.stats.live[c] k).toNat
  | .liveGlobal k => leBytes 4 (globalValue s.stats.globals k).toNat
  | .liveSaturated => leBytes 4 (saturatedFlags s.stats.live s.stats.globals)
  | .bankState => leBytes 1 (bankStateCode s.stats.bank.state)
  | .bankTime => leBytes 4 s.stats.bank.time.toNat
  | .bankInterval => leBytes 4 s.stats.bank.interval.toNat
  | .bankCounter c k => leBytes 4 (classValue s.stats.bank.classes[c] k).toNat
  | .bankGlobal k => leBytes 4 (globalValue s.stats.bank.globals k).toNat
  | .bankSaturated => leBytes 4 (saturatedFlags s.stats.bank.classes s.stats.bank.globals)
  | .slotView k => slotViewBytes s.transit.slots[k]

end Sys2Proof.Machine
end

