-- ==== Sys2Proof/Machine/Forwarding.lean ====
section
/-! DEFINITION. Period boundaries, the arbiter's choice, the forwarding event and the request channel
(chapters 5 and 6). -/

namespace Sys2Proof.Machine

/-- A class head is eligible exactly when its condition is READY (R95). -/
def State.eligible (s : State) (c : ClassId) : Bool := decide (s.headCondition c = .ready)

/-- The priority level of a class, read from its active copy (R94). -/
def State.level (s : State) (c : ClassId) : Fin 4 := s.budget[c].active.level

/-- The class numbers in increasing order from a pointer, wrapping from 15 to 0 (R107). -/
def fromPointer (p : ClassId) : List ClassId := (List.finRange 16).map (fun i => p + i)

/-- The choice at one level: the first eligible class of that level from the level's pointer (R107). -/
def State.chooseAt (s : State) (l : Fin 4) : Option ClassId :=
  (fromPointer s.arbiter.pointers[l]).find? (fun c => s.eligible c && decide (s.level c = l))

/-- The arbiter's choice: the highest level with an eligible head decides (R107). -/
def State.chooseClass (s : State) : Option ClassId := [3, 2, 1, 0].findSome? s.chooseAt

/-- The transit record of a forwarded request; the deadline and guard are captured from the class's active
copy (R109 step 3, R121). -/
def State.slotRecordFor (s : State) (c : ClassId) (r : HoldRecord) : SlotRecord :=
  { source := r.source, tag := r.tag, cls := r.cls, kind := r.kind, address := r.address
    length := r.length, arrival := r.arrival, forwardTime := s.time
    deadline := s.budget[c].active.deadline, guard := s.budget[c].active.guard }

/-- The deadline time: forward time plus captured deadline, absent when the deadline is 0 (R121). -/
def deadlineTimeOf (r : SlotRecord) : Option Time :=
  if r.deadline = 0 then none else some (r.forwardTime + r.deadline.setWidth 32)

/-- Slot `k` is allocated: its epoch advances by one modulo 8 and it becomes IN_FLIGHT (R109 steps 1 to 3,
R120). -/
def State.allocate (s : State) (k : SlotId) (r : SlotRecord) : State :=
  { s with
    transit.slots := s.transit.slots.set k
      { epoch := s.transit.slots[k].epoch + 1, state := .inFlight r (deadlineTimeOf r) false }
    transit.order := s.transit.order.filter (fun j => decide (j ≠ k)) ++ [k] }

/-- In METER mode the class's account is charged the request's length (R87). -/
def State.charge (s : State) (c : ClassId) (length : Nat) : State :=
  if s.budget[c].active.isMeter then
    s.setBudget c { s.budget[c] with account := s.budget[c].account - length }
  else s

/-- The pool's part of a forwarding: the head leaves its queue and every wait list and becomes FREE, its
data lines with it (R33, R109 step 6). -/
def State.removeHead (s : State) (c : ClassId) (e : EntryId) : State :=
  ((s.setEntry e .free).dropFromWaitLists e).setQueue c s.pool.queues[c].tail

/-- The request is placed on the request channel under its downstream tag (R12, R109 step 8). -/
def State.send (s : State) (k : SlotId) (epoch : BitVec 3) (r : HoldRecord) : State :=
  { s with
    arbiter.channel := some
      { source := r.source, kind := r.kind, address := r.address, length := r.length
        tag := downstreamTag k epoch, data := r.data } }

/-- The forwarding of the head `e`, with record `r`, of class `c` into slot `k`, as one event (R109). -/
def State.forwardHead (s : State) (c : ClassId) (e : EntryId) (r : HoldRecord) (k : SlotId) : State :=
  let t := s.allocate k (s.slotRecordFor c r)
  let t := { t with mem.available := s.mem.available - 1 }
  let t := ((t.charge c r.length).removeHead c e).send k (s.transit.slots[k].epoch + 1) r
  let t := (t.countClass c .forwardedRequests 1).countClass c .forwardedLines r.length
  (t.offerHold c (s.time - r.arrival)).noteBudgetWaits

/-- The pointer of the chosen class's level moves to the number after the class (R107 step 3). -/
def State.movePointer (s : State) (c : ClassId) : State :=
  { s with arbiter.pointers := s.arbiter.pointers.set (s.level c) (c + 1) }

/-- FORWARDING: while the request channel is idle the arbiter makes a choice and forwards the head it
chose; with no eligible head, or while the channel is sending, nothing happens (R105, R107). -/
def State.forwardChoice (s : State) : State :=
  match s.arbiter.channel, s.chooseClass with
  | none, some c =>
    match s.head? c, s.lowestFreeSlot with
    | some e, some k =>
      match s.pool.entries[e] with
      | .queued r => (s.movePointer c).forwardHead c e r k
      | .free | .cancelling _ => s
    | _, _ => s
  | _, _ => s

/-- FORWARDING (R107, R109). -/
def execForwarding (s : State) : Host.Outcome State Fault Refusal :=
  .next (s.whenRunning State.forwardChoice)

/-- SEND_COMPLETION: memory has taken the request and the channel is idle (R105). -/
def execSendCompletion (s : State) : Host.Outcome State Fault Refusal :=
  .next (s.whenRunning fun s => { s with arbiter.channel := none })

/-- PERIOD_BOUNDARY: the class's boundary is taken when the elapsed time from its last boundary has reached
the active period (R84, R85). -/
def execPeriodBoundary (c : ClassId) (s : State) : Host.Outcome State Fault Refusal :=
  .next (s.whenRunning fun s =>
    if s.reached s.budget[c].lastBoundary s.budget[c].active.period.toNat then
      s.takeBoundary c false
    else s)

end Sys2Proof.Machine
end

