-- ==== Sys2Proof/Machine/Links.lean ====
section
/-! DEFINITION. The fabric link, the memory link and the memory credits (chapters 6, 7 and 8). -/

namespace Sys2Proof.Machine

/-- FABRIC_LINK_UP: DOWN becomes UP and FABRIC_LINK_UP is raised; nothing else changes (R140). -/
def State.fabricLinkUp (s : State) : State :=
  match s.ret.link with
  | .down => { s with ret.link := .up }.raise (plainIncident .fabricLinkUp 0)
  | .up => s

/-- What a fabric link-down makes of a slot: IN_FLIGHT and EXPIRED become EXPIRED owing nothing, LOST
becomes FREE (R137). -/
def SlotState.fabricDown : SlotState → SlotState
  | .free => .free
  | .inFlight r _ _ => .expired r false
  | .expired r _ => .expired r false
  | .lost _ => .free

/-- What a memory link-down makes of a slot: IN_FLIGHT and EXPIRED owing TIMEOUT become LOST owing LOST,
EXPIRED owing nothing becomes FREE (R136). -/
def SlotState.memoryDown : SlotState → SlotState
  | .free => .free
  | .inFlight r _ _ => .lost r
  | .expired r true => .lost r
  | .expired _ false => .free
  | .lost r => .lost r

/-- The slot becomes LOST at a memory link-down (R136). -/
def SlotState.becomesLost : SlotState → Bool
  | .inFlight _ _ _ => true
  | .expired _ owes => owes
  | .free | .lost _ => false

/-- A fabric link-down empties the intake; a STALLED request's episode ends and is charged (R73). -/
def State.dropIntake (s : State) : State :=
  match s.intake.register with
  | .stalled q => s.endStall q
  | .empty | .rejecting _ _ _ => s.setIntake .empty

/-- A fabric link-down leaves an UNMATCHED response in the return register and discards a matched one
(R153). -/
def ReturnRegister.fabricDown : ReturnRegister → ReturnRegister
  | .empty => .empty
  | .unmatched resp => .unmatched resp
  | .matched _ => .empty

/-- FABRIC_LINK_DOWN: every obligation and debt is dissolved. The intake and the pool are emptied, the
slots released, the offer withdrawn, the answer list emptied and a matched response discarded; the freed
entries are counted, FABRIC_LINK_DOWN is raised with the answer list length before, and a quiesce may
complete (R38, R73, R113, R137, R153). -/
def State.fabricLinkDown (s : State) : State :=
  match s.ret.link with
  | .down => s
  | .up =>
    let t := s.dropIntake.mapSlots SlotState.fabricDown
    let t := { t with
      pool := HoldPool.empty
      ret :=
        { link := .down, channel := .idle, register := s.ret.register.fabricDown, answers := []
          turn := s.ret.turn } }
    ((t.countGlobal .lostOnFabricDown s.poolOccupancy).raise
      (plainIncident .fabricLinkDown (BitVec.ofNat 32 s.ret.answers.length))).completeQuiesce

/-- MEMORY_LINK_UP: DOWN becomes WAIT_GRANT and MEMORY_LINK_UP is raised (R100). -/
def State.memoryLinkUp (s : State) : State :=
  match s.mem.link with
  | .down => { s with mem.link := .waitGrant }.raise (plainIncident .memoryLinkUp 0)
  | .waitGrant | .up => s

/-- The slots that join the answer list at a memory link-down: the IN_FLIGHT ones in the order of their
forwarding events (R136). -/
def State.lostOrder (s : State) : List Owner :=
  (s.transit.order.filter (fun k => s.transit.slots[k].state.isInFlight)).map Owner.slot

/-- MEMORY_LINK_DOWN: the link is DOWN with no credits, the channel is idle, the slots change as R136 gives
and the new LOST ones join the answer list, the losses are counted, MEMORY_LINK_DOWN is raised with the
state left, a quiesce may complete, and the response channel makes its choice (R104, R113, R136, R150). -/
def State.memoryLinkDown (s : State) : State :=
  match s.mem.link with
  | .down => s
  | .waitGrant | .up =>
    let t := { s with
      mem := { link := .down, granted := 0, available := 0 }
      arbiter.channel := none }
    let t := (t.mapSlots SlotState.memoryDown).joinAnswers s.lostOrder
    let t := t.countGlobal .lostOnMemoryDown (s.countSlots SlotState.becomesLost)
    let t := t.raise (plainIncident .memoryLinkDown (detailBytes (memLinkCode s.mem.link) 0 0))
    t.completeQuiesce.chooseOffer

/-- CREDIT_GRANT n: in WAIT_GRANT the link becomes UP with n granted and available; while UP it is ignored
as credit excess; in DOWN no credit message is taken (R99, R101). -/
def State.creditGrant (s : State) (n : Nat) : State :=
  match s.mem.link with
  | .down => s
  | .waitGrant => { s with mem := { link := .up, granted := n, available := n } }
  | .up => s.creditExcess 1 n

/-- CREDIT_RETURN k: while UP it adds k, clamped to granted with the excess reported; in WAIT_GRANT it is
ignored as credit excess; in DOWN no credit message is taken (R99, R102). -/
def State.creditReturn (s : State) (k : Nat) : State :=
  match s.mem.link with
  | .down => s
  | .waitGrant => s.creditExcess 3 k
  | .up =>
    if s.mem.available + k ≤ s.mem.granted then
      { s with mem.available := s.mem.available + k }
    else { s with mem.available := s.mem.granted }.creditExcess 2 k

/-- FABRIC_LINK_UP (R140). -/
def execFabricLinkUp (s : State) : Host.Outcome State Fault Refusal :=
  .next (s.whenRunning State.fabricLinkUp)

/-- FABRIC_LINK_DOWN (R153). -/
def execFabricLinkDown (s : State) : Host.Outcome State Fault Refusal :=
  .next (s.whenRunning State.fabricLinkDown)

/-- MEMORY_LINK_UP (R100). -/
def execMemoryLinkUp (s : State) : Host.Outcome State Fault Refusal :=
  .next (s.whenRunning State.memoryLinkUp)

/-- MEMORY_LINK_DOWN (R104). -/
def execMemoryLinkDown (s : State) : Host.Outcome State Fault Refusal :=
  .next (s.whenRunning State.memoryLinkDown)

/-- CREDIT_GRANT (R101); the message carries the count minus one (R198). -/
def execCreditGrant (countMinusOne : BitVec 6) (s : State) : Host.Outcome State Fault Refusal :=
  .next (s.whenRunning fun s => s.creditGrant (countMinusOne.toNat + 1))

/-- CREDIT_RETURN (R102); the message carries the count minus one (R198). -/
def execCreditReturn (countMinusOne : BitVec 6) (s : State) : Host.Outcome State Fault Refusal :=
  .next (s.whenRunning fun s => s.creditReturn (countMinusOne.toNat + 1))

end Sys2Proof.Machine
end

