-- ==== Sys2Proof/Machine/Commands.lean ====
section
/-! DEFINITION. The commands of the command register: the port's judgement and each owner's effect
(R184, R185 and the owners' rules). -/

namespace Sys2Proof.Machine

/-! ## The command status -/

/-- A command taken at step 2 or later of R184 sets the whole command status, the busy fields to 0
(R185). -/
def State.setStatus (s : State) (code argument : Byte) (state : CommandState) (reason : Reason)
    (detail : BitVec 16) : State :=
  { s with
    port.status :=
      { state := state, code := code, argument := argument, reason := reason, detail := detail
        busyRefusals := 0, busyCode := 0 } }

/-- DONE with a detail (R185). -/
def State.done (s : State) (code argument : Byte) (detail : Nat) : State :=
  s.setStatus code argument .done .none (BitVec.ofNat 16 detail)

/-- REFUSED with a reason and a detail (R185). -/
def State.refuse (s : State) (code argument : Byte) (reason : Reason) (detail : Nat) : State :=
  s.setStatus code argument .refused reason (BitVec.ofNat 16 detail)

/-- REFUSED with a reason whose detail the spec does not state: a free value (log entry 11). -/
def State.refuseFree (s : State) (code argument : Byte) (reason : Reason) : State :=
  { s with draws := s.draws + 1 }.setStatus code argument .refused reason
    (Config.unstatedDetail s.draws)

/-- Refused BUSY: only the two busy fields change; the count stays at 255 (R184 step 1, R185). -/
def State.refuseBusy (s : State) (code : Byte) : State :=
  { s with
    port.status.busyRefusals :=
      if s.port.status.busyRefusals = 255 then 255 else s.port.status.busyRefusals + 1
    port.status.busyCode := code }

/-- A write of the command register takes effect: the register holds the value written, and while the status
is RUNNING every command but RESUME is refused BUSY; otherwise `owner` takes it (R184). -/
def State.command (s : State) (code argument : Byte) (owner : State → State) : State :=
  let t := { s with port.commandCode := code, port.commandArgument := argument }
  if s.port.status.state = .running ∧ code ≠ 2 then t.refuseBusy code else owner t

/-- A command with a class argument: above 15 it is refused BAD_ARGUMENT with detail 2 (R184 step 3). -/
def State.classCommand (s : State) (code argument : Byte) (owner : ClassId → State → State) : State :=
  s.command code argument fun t =>
    if argument.toNat < 16 then owner (Fin.ofNat 16 argument.toNat) t
    else t.refuse code argument .badArgument 2

/-! ## The owners' effects -/

/-- QUIESCE: from OPEN, QUIESCING with status RUNNING and the number of IN_FLIGHT slots, completing at once
when that is 0; in QUIESCING refused BUSY; in QUIESCED refused ALREADY (R112, R113). -/
def State.takeQuiesce (s : State) (argument : Byte) : State :=
  match s.arbiter.quiesce with
  | .opened =>
    ({ s with arbiter.quiesce := .quiescing }.setStatus 1 argument .running .none
      (BitVec.ofNat 16 (s.countSlots SlotState.isInFlight))).completeQuiesce
  | .quiescing => s.refuseBusy 1
  | .quiesced => s.refuseFree 1 argument .already

/-- RESUME: from QUIESCING or QUIESCED, OPEN with DONE; from QUIESCED the alert flag QUIESCE is cleared; in
OPEN refused NOT_QUIESCED (R114). -/
def State.takeResume (s : State) (argument : Byte) : State :=
  match s.arbiter.quiesce with
  | .opened => s.refuseFree 2 argument .notQuiesced
  | .quiescing => { s with arbiter.quiesce := .opened }.done 2 argument 0
  | .quiesced =>
    { s with arbiter.quiesce := .opened, alerts.quiesce := false }.done 2 argument 0

/-- The other bank. -/
def Bank.other : Bank → Bank
  | .a => .b
  | .b => .a

/-- MAP_SWAP: the indicator names the bank that was the shadow (R67). -/
def State.takeMapSwap (s : State) (argument : Byte) : State :=
  { s with map.active := s.map.active.other }.done 3 argument (bankCode s.map.active.other)

/-- The reservation a class counts for in another class's reservation-sum check: the larger of its active
and, while its pending flag is set, its staged reservation (R80). -/
def ClassBudget.countedReservation (b : ClassBudget) : Nat :=
  max b.active.reservation.toNat (if b.pending then b.staged.reservation.toNat else 0)

/-- The sum of the reservation-sum check for class `n` (R80). -/
def State.reservationSum (s : State) (n : ClassId) : Nat :=
  ((List.finRange 16).map (fun k =>
    if k = n then s.budget[k].staged.reservation.toNat else s.budget[k].countedReservation)).sum

/-- The number of the first of checks 1 to 5 that a settings record fails (R79). -/
def Settings.firstFailing (r : Settings) : Option Nat :=
  if 2 < r.mode.toNat ∨ 1 < r.guard.toNat ∨ 3 < r.priority.toNat then some 1
  else if r.period = 0 then some 2
  else if r.limit.toNat < 1 ∨ 192 < r.limit.toNat then some 3
  else if 32 < r.reservation.toNat then some 4
  else if r.limit.toNat < r.reservation.toNat then some 5
  else none

/-- The number of the first of the six checks that class `n`'s staged copy fails; none if it is valid
(R79). -/
def State.failingCheck (s : State) (n : ClassId) : Option Nat :=
  match s.budget[n].staged.firstFailing with
  | some i => some i
  | none => if s.reservationSum n ≤ Config.reservationTotal then none else some 6

/-- CLASS_COMMIT: a valid staged copy sets the pending flag, DONE with the time to the class's boundary
(R81). -/
def State.takeCommit (argument : Byte) (n : ClassId) (s : State) : State :=
  match s.failingCheck n with
  | none => (s.setBudget n { s.budget[n] with pending := true }).done 4 argument (s.timeToBoundary n)
  | some i => s.refuse 4 argument .invalidSettings i

/-- CLASS_APPLY: a valid staged copy takes a forced boundary (R82). -/
def State.takeApply (argument : Byte) (n : ClassId) (s : State) : State :=
  match s.failingCheck n with
  | none => (s.takeBoundary n true).done 5 argument 0
  | some i => s.refuse 5 argument .invalidSettings i

/-- A QUEUED entry becomes CANCELLING with an empty wait list (R34 steps 1 and 2). -/
def HoldEntry.cancel : HoldEntry → HoldEntry
  | .queued r => .cancelling { r with waitList := [] }
  | .free => .free
  | .cancelling r => .cancelling r

/-- One entry of a discarded queue: cancelled and removed from every wait list (R34). -/
def State.cancelEntry (s : State) (e : EntryId) : State :=
  (s.setEntry e s.pool.entries[e].cancel).dropFromWaitLists e

/-- CLASS_DISCARD: the class queue's entries, oldest first, become CANCELLING, leave every wait list and
join the answer list; they are counted and the queue is empty (R34). -/
def State.takeDiscard (argument : Byte) (n : ClassId) (s : State) : State :=
  let q := s.pool.queues[n]
  let t := ((q.foldl State.cancelEntry s).setQueue n []).joinAnswers (q.map Owner.entry)
  ((t.countClass n .cancelled q.length).noteBudgetWaits.done 6 argument q.length).chooseOffer

/-- What PURGE makes of a slot: EXPIRED owing nothing becomes FREE (R134). -/
def SlotState.purge : SlotState → SlotState
  | .expired _ false => .free
  | .expired r true => .expired r true
  | .free => .free
  | .inFlight r d o => .inFlight r d o
  | .lost r => .lost r

/-- The slot is EXPIRED and owes nothing. -/
def SlotState.owesNothing : SlotState → Bool
  | .expired _ owes => !owes
  | .free | .inFlight _ _ _ | .lost _ => false

/-- PURGE: every EXPIRED slot that owes nothing is FREE, DONE with their number (R134). -/
def State.takePurge (s : State) (argument : Byte) : State :=
  (s.mapSlots SlotState.purge).done 7 argument (s.countSlots SlotState.owesNothing)

/-- SNAPSHOT: taken in EMPTY; in LOCKED refused BANK_LOCKED and counted as missed (R163). -/
def State.takeSnapshotCommand (s : State) (argument : Byte) : State :=
  match s.stats.bank.state with
  | .empty => s.takeSnapshot.done 8 argument 0
  | .locked => (s.countGlobal .snapshotsMissed 1).refuse 8 argument .bankLocked 0

/-- SNAPSHOT_RELEASE: LOCKED becomes EMPTY and the alert flag SNAPSHOT is cleared; in EMPTY refused
BANK_EMPTY (R164). -/
def State.takeRelease (s : State) (argument : Byte) : State :=
  match s.stats.bank.state with
  | .empty => s.refuse 9 argument .bankEmpty 0
  | .locked =>
    { s with stats.bank.state := .empty, alerts.snapshot := false }.done 9 argument 0

/-- STATS_CLEAR: every live record is zeroed (R165). -/
def State.takeStatsClear (s : State) (argument : Byte) : State := s.zeroLive.done 10 argument 0

/-- INCIDENTS_CLEAR: every record is discarded, the drop count is 0 and the head mark clear, DONE with the
number discarded; the sequence counter stays (R173). -/
def State.takeIncidentsClear (s : State) (argument : Byte) : State :=
  { s with
    incidents.records := []
    incidents.dropCount := 0
    incidents.headMark := false }.done 11 argument s.incidents.records.length

/-- The settings, the class map and global control at their reset values, every period timer restarted
(R187). -/
def State.restoreDefaults (s : State) : State :=
  { s with
    budget := Vector.replicate 16 (ClassBudget.reset s.time)
    map := ClassMap.reset
    intake.stallLimit := 0
    stats.autoInterval := 0
    stats.boundaries := resetBoundaries
    alerts.enables := AlertEnables.clear }

/-- DEFAULTS: refused NOT_QUIESCED unless QUIESCED, NOT_EMPTY with detail 1 unless the pool is empty and
with detail 2 unless every slot is FREE; otherwise the configuration returns to its reset values and a
STALLED request is retried at this event (R186, R187). -/
def State.takeDefaults (s : State) (argument : Byte) : State :=
  if s.arbiter.quiesce ≠ .quiesced then s.refuse 12 argument .notQuiesced 0
  else if s.poolOccupancy ≠ 0 then s.refuse 12 argument .notEmpty 1
  else if s.countSlots SlotState.isFree ≠ 128 then s.refuse 12 argument .notEmpty 2
  else (s.restoreDefaults.done 12 argument 0).retryPlacement

/-! ## The commands -/

/-- QUIESCE at the port and its owner. -/
def State.commandQuiesce (s : State) (argument : Byte) : State :=
  s.command 1 argument fun t => t.takeQuiesce argument

/-- RESUME at the port and its owner. -/
def State.commandResume (s : State) (argument : Byte) : State :=
  s.command 2 argument fun t => t.takeResume argument

/-- MAP_SWAP at the port and its owner. -/
def State.commandMapSwap (s : State) (argument : Byte) : State :=
  s.command 3 argument fun t => t.takeMapSwap argument

/-- CLASS_COMMIT at the port and its owner. -/
def State.commandCommit (s : State) (argument : Byte) : State :=
  s.classCommand 4 argument (State.takeCommit argument)

/-- CLASS_APPLY at the port and its owner. -/
def State.commandApply (s : State) (argument : Byte) : State :=
  s.classCommand 5 argument (State.takeApply argument)

/-- CLASS_DISCARD at the port and its owner. -/
def State.commandDiscard (s : State) (argument : Byte) : State :=
  s.classCommand 6 argument (State.takeDiscard argument)

/-- PURGE at the port and its owner. -/
def State.commandPurge (s : State) (argument : Byte) : State :=
  s.command 7 argument fun t => t.takePurge argument

/-- SNAPSHOT at the port and its owner. -/
def State.commandSnapshot (s : State) (argument : Byte) : State :=
  s.command 8 argument fun t => t.takeSnapshotCommand argument

/-- SNAPSHOT_RELEASE at the port and its owner. -/
def State.commandRelease (s : State) (argument : Byte) : State :=
  s.command 9 argument fun t => t.takeRelease argument

/-- STATS_CLEAR at the port and its owner. -/
def State.commandStatsClear (s : State) (argument : Byte) : State :=
  s.command 10 argument fun t => t.takeStatsClear argument

/-- INCIDENTS_CLEAR at the port and its owner. -/
def State.commandIncidentsClear (s : State) (argument : Byte) : State :=
  s.command 11 argument fun t => t.takeIncidentsClear argument

/-- DEFAULTS at the port, for every owner. -/
def State.commandDefaults (s : State) (argument : Byte) : State :=
  s.command 12 argument fun t => t.takeDefaults argument

/-- A code that names no command is refused BAD_ARGUMENT with detail 1 (R184 step 2). -/
def State.commandUnknown (s : State) (code argument : Byte) : State :=
  s.command code argument fun t => t.refuse code argument .badArgument 1

/-- A write of the command register, by its code (R193). -/
def State.writeCommand (s : State) (code argument : Byte) : State :=
  match code.toNat with
  | 1 => s.commandQuiesce argument
  | 2 => s.commandResume argument
  | 3 => s.commandMapSwap argument
  | 4 => s.commandCommit argument
  | 5 => s.commandApply argument
  | 6 => s.commandDiscard argument
  | 7 => s.commandPurge argument
  | 8 => s.commandSnapshot argument
  | 9 => s.commandRelease argument
  | 10 => s.commandStatsClear argument
  | 11 => s.commandIncidentsClear argument
  | 12 => s.commandDefaults argument
  | _ => s.commandUnknown code argument

/-- QUIESCE (R112, R184). -/
def execQuiesce (argument : Byte) (s : State) : Host.Outcome State Fault Refusal :=
  .next (s.whenRunning fun s => s.commandQuiesce argument)

/-- RESUME (R114, R184). -/
def execResume (argument : Byte) (s : State) : Host.Outcome State Fault Refusal :=
  .next (s.whenRunning fun s => s.commandResume argument)

/-- MAP_SWAP (R67, R184). -/
def execMapSwap (argument : Byte) (s : State) : Host.Outcome State Fault Refusal :=
  .next (s.whenRunning fun s => s.commandMapSwap argument)

/-- CLASS_COMMIT (R81, R184). -/
def execClassCommit (argument : Byte) (s : State) : Host.Outcome State Fault Refusal :=
  .next (s.whenRunning fun s => s.commandCommit argument)

/-- CLASS_APPLY (R82, R184). -/
def execClassApply (argument : Byte) (s : State) : Host.Outcome State Fault Refusal :=
  .next (s.whenRunning fun s => s.commandApply argument)

/-- CLASS_DISCARD (R34, R184). -/
def execClassDiscard (argument : Byte) (s : State) : Host.Outcome State Fault Refusal :=
  .next (s.whenRunning fun s => s.commandDiscard argument)

/-- PURGE (R134, R184). -/
def execPurge (argument : Byte) (s : State) : Host.Outcome State Fault Refusal :=
  .next (s.whenRunning fun s => s.commandPurge argument)

/-- SNAPSHOT (R163, R184). -/
def execSnapshot (argument : Byte) (s : State) : Host.Outcome State Fault Refusal :=
  .next (s.whenRunning fun s => s.commandSnapshot argument)

/-- SNAPSHOT_RELEASE (R164, R184). -/
def execSnapshotRelease (argument : Byte) (s : State) : Host.Outcome State Fault Refusal :=
  .next (s.whenRunning fun s => s.commandRelease argument)

/-- STATS_CLEAR (R165, R184). -/
def execStatsClear (argument : Byte) (s : State) : Host.Outcome State Fault Refusal :=
  .next (s.whenRunning fun s => s.commandStatsClear argument)

/-- INCIDENTS_CLEAR (R173, R184). -/
def execIncidentsClear (argument : Byte) (s : State) : Host.Outcome State Fault Refusal :=
  .next (s.whenRunning fun s => s.commandIncidentsClear argument)

/-- DEFAULTS (R184, R186, R187). -/
def execDefaults (argument : Byte) (s : State) : Host.Outcome State Fault Refusal :=
  .next (s.whenRunning fun s => s.commandDefaults argument)

/-- UNKNOWN_COMMAND_CODE (R184). A code that does name a command is that command's write
(log entry 14). -/
def execUnknownCommandCode (code argument : Byte) (s : State) : Host.Outcome State Fault Refusal :=
  .next (s.whenRunning fun s => s.writeCommand code argument)

end Sys2Proof.Machine
end

