-- ==== Sys2Proof/Machine/Fields.lean ====
section
/-! DEFINITION. The write events of the window's writable fields at their owners: each field takes effect
whole (R182, R183). The commands here are the owners' events; the bytes that carry them are WINDOW_WRITE's
(log entry 12). -/

namespace Sys2Proof.Machine

/-- A staged setting takes the written value and the class's pending flag is cleared (R78). -/
def State.writeStaged (s : State) (c : ClassId) (f : SettingField) (v : BitVec 16) : State :=
  s.setBudget c { s.budget[c] with staged := s.budget[c].staged.put f v, pending := false }

/-- A match entry of the shadow bank is replaced whole (R66). -/
def State.writeShadow (s : State) (e : MapIndex) (m : MatchEntry) : State :=
  match s.map.active with
  | .a => { s with map.bankB := s.map.bankB.set e m }
  | .b => { s with map.bankA := s.map.bankA.set e m }

/-- The default class is replaced; bits 7:4 of the byte are unused (R65). -/
def State.writeDefaultClass (s : State) (b : Byte) : State :=
  { s with map.defaultClass := Fin.ofNat 16 b.toNat }

/-- The intake stall limit is replaced and compared at once with a stall in progress (R71). -/
def State.writeStallLimit (s : State) (v : BitVec 16) : State :=
  { s with intake.stallLimit := v }.reportStall

/-- The auto-snapshot interval is set; a value above 0 starts the timer at the present time, 0 stops it
(R166). -/
def State.writeAutoInterval (s : State) (v : BitVec 16) : State :=
  { s with
    stats.autoInterval := v
    stats.timerStart := if v = 0 then s.stats.timerStart else s.time }

/-- The number, 1..7, of the first boundary that fails: b1 of 0, or a later one not greater than the one
before it (R160). -/
def firstFailingBoundary (b : Vector (BitVec 16) 7) : Option Nat :=
  ((List.finRange 7).find? (fun i =>
    if h : i.val = 0 then decide (b[i] = 0)
    else decide (b[i].toNat ≤ (b[i.val - 1]'(by omega)).toNat))).map (fun i => i.val + 1)

/-- Seven boundaries that ascend strictly from at least 1 replace those in force; otherwise
CONFIG_REJECTED is raised with the field and the first failing value (R160, R196). -/
def State.writeBoundaries (s : State) (b : Vector (BitVec 16) 7) : State :=
  match firstFailingBoundary b with
  | none => { s with stats.boundaries := b }
  | some i => s.raise (plainIncident .configRejected (detailBytes 1 i 0))

/-- Each latched flag whose bit is written as one is cleared; a one to INCIDENT is ignored (R175). -/
def State.writeAlertFlags (s : State) (b : Byte) : State :=
  { s with
    alerts.snapshot := s.alerts.snapshot && !b.getLsbD 1
    alerts.quiesce := s.alerts.quiesce && !b.getLsbD 2
    alerts.saturation := s.alerts.saturation && !b.getLsbD 3 }

/-- The alert enables are replaced (R176). -/
def State.writeAlertEnables (s : State) (b : Byte) : State :=
  { s with alerts.enables := enablesOf b }

/-- STAGED_SETTING_WRITE (R78). -/
def execStagedSettingWrite (c : ClassId) (f : SettingField) (v : BitVec 16) (s : State) :
    Host.Outcome State Fault Refusal :=
  .next (s.whenRunning fun s => s.writeStaged c f v)

/-- SHADOW_ENTRY_WRITE (R66). -/
def execShadowEntryWrite (e : MapIndex) (m : MatchEntry) (s : State) :
    Host.Outcome State Fault Refusal :=
  .next (s.whenRunning fun s => s.writeShadow e m)

/-- DEFAULT_CLASS_WRITE (R65). -/
def execDefaultClassWrite (b : Byte) (s : State) : Host.Outcome State Fault Refusal :=
  .next (s.whenRunning fun s => s.writeDefaultClass b)

/-- STALL_LIMIT_WRITE (R71). -/
def execStallLimitWrite (v : BitVec 16) (s : State) : Host.Outcome State Fault Refusal :=
  .next (s.whenRunning fun s => s.writeStallLimit v)

/-- AUTO_SNAPSHOT_INTERVAL_WRITE (R166). -/
def execAutoSnapshotIntervalWrite (v : BitVec 16) (s : State) : Host.Outcome State Fault Refusal :=
  .next (s.whenRunning fun s => s.writeAutoInterval v)

/-- HISTOGRAM_BOUNDARIES_WRITE (R160). -/
def execHistogramBoundariesWrite (b : Vector (BitVec 16) 7) (s : State) :
    Host.Outcome State Fault Refusal :=
  .next (s.whenRunning fun s => s.writeBoundaries b)

/-- ALERT_FLAGS_WRITE (R175). -/
def execAlertFlagsWrite (b : Byte) (s : State) : Host.Outcome State Fault Refusal :=
  .next (s.whenRunning fun s => s.writeAlertFlags b)

/-- ALERT_ENABLES_WRITE (R176). -/
def execAlertEnablesWrite (b : Byte) (s : State) : Host.Outcome State Fault Refusal :=
  .next (s.whenRunning fun s => s.writeAlertEnables b)

end Sys2Proof.Machine
end

