-- ==== Sys2Proof/Machine/Port.lean ====
section
/-! DEFINITION. The I2C target: transfers, the window offset, the write assembly, the field latch and the
incident head (R172, R178 to R182). -/

namespace Sys2Proof.Machine

/-! ## Transfers -/

/-- The part's 7-bit target address: 0x58 plus the sampled straps (R178). -/
def State.targetAddress (s : State) : BitVec 7 := Config.i2cBaseAddress + s.port.straps.setWidth 7

/-- A START or repeated START with an address byte: any transfer in progress ends, its assembly is
discarded; the part's own address is acknowledged and opens a transfer, any other leaves the port idle
(R178, R182). -/
def State.i2cAddress (s : State) (address : BitVec 7) (direction : I2cDirection) : State :=
  if address = s.targetAddress then
    { s with
      port.bus := match direction with | .write => .awaitOffset | .read => .reading
      port.ack := true
      port.assembly := none }
  else
    { s with
      port.bus := .idle
      port.ack := false
      port.assembly := none }

/-- The two offset bytes of a write transfer, high byte first, set the window offset (R179). -/
def State.offsetWrite (s : State) (high low : Byte) : State :=
  match s.port.bus with
  | .awaitOffset => { s with port.bus := .writing, port.ack := true, port.offset := high ++ low }
  | .idle | .writing | .reading => s

/-- A STOP or repeated START ends the transfer and discards the write assembly (R182). -/
def State.transferEnd (s : State) : State :=
  { s with port.bus := .idle, port.ack := false, port.assembly := none }

/-! ## Writes -/

/-- A field takes effect: its whole value is handed to its owner as one write event (R182, R183). Only a
writable field is ever handed over. -/
def State.takeField (s : State) (f : Field) (bytes : List Byte) : State :=
  match f with
  | .defaultClass => s.writeDefaultClass (byteAt bytes 0)
  | .stallLimit => s.writeStallLimit (BitVec.ofNat 16 (ofLeBytes bytes))
  | .autoInterval => s.writeAutoInterval (BitVec.ofNat 16 (ofLeBytes bytes))
  | .alertEnables => s.writeAlertEnables (byteAt bytes 0)
  | .boundaries => s.writeBoundaries (boundariesOf bytes)
  | .alertFlags => s.writeAlertFlags (byteAt bytes 0)
  | .command => s.writeCommand (byteAt bytes 0) (byteAt bytes 1)
  | .shadowEntry e => s.writeShadow e (matchEntryOf bytes)
  | .staged c f => s.writeStaged c f (BitVec.ofNat 16 (ofLeBytes bytes))
  | .identity | .commandStatus | .resetCause | .globalStatus | .queueLength | .dropCount
  | .incidentHead | .activeBank | .activeEntry _ | .activeSettings _ | .classStatus _
  | .liveCounter _ _ | .liveGlobal _ | .liveSaturated | .bankState | .bankTime | .bankInterval
  | .bankCounter _ _ | .bankGlobal _ | .bankSaturated | .slotView _ => s

/-- Replace the write assembly. -/
def State.setAssembly (s : State) (a : Option (Field × List Byte)) : State :=
  { s with port.assembly := a }

/-- The bytes assembled for a field once a byte for place `i` of it is added: the first byte starts anew, a
later one needs all the earlier ones; none where the byte is discarded (R182). -/
def State.assembled (s : State) (f : Field) (i : Nat) (b : Byte) : Option (List Byte) :=
  if i = 0 then some [b]
  else
    match s.port.assembly with
    | some (g, bytes) => if g = f ∧ bytes.length = i then some (bytes ++ [b]) else none
    | none => none

/-- A byte written to place `i` of a field: added to the assembly, and with the last byte the field takes
effect; a byte of a read-only field, or out of order, is discarded with the assembly (R182). -/
def State.writeByte (s : State) (f : Field) (i : Nat) (b : Byte) : State :=
  if f.writable then
    match s.assembled f i b with
    | some bytes =>
      if bytes.length = f.size then (s.setAssembly none).takeField f bytes
      else s.setAssembly (some (f, bytes))
    | none => s.setAssembly none
  else s.setAssembly none

/-- The window offset advances by one, from 65535 to 0 (R179, R180). -/
def State.advanceOffset (s : State) : State := { s with port.offset := s.port.offset + 1 }

/-- A window byte of a write transfer: acknowledged, taken at the window offset, and the offset advances
(R179, R182). -/
def State.windowWrite (s : State) (b : Byte) : State :=
  match s.port.bus with
  | .writing =>
    let t := { s with port.ack := true }
    (match fieldAt s.port.offset with
      | some (f, i) => t.writeByte f i b
      | none => t.setAssembly none).advanceOffset
  | .idle | .awaitOffset | .reading => s

/-! ## Reads -/

/-- The byte a read at an offset sends: 0 outside the window; from the latch for a later byte of the field
it holds; otherwise live (R180, R181). The first byte is the live one that is latched at this event. -/
def State.readByte (s : State) (offset : BitVec 16) : Byte :=
  match fieldAt offset with
  | none => 0
  | some (f, i) =>
    match s.port.latch with
    | some (g, bytes) =>
      if g = f ∧ i ≠ 0 then byteAt bytes i else byteAt (s.fieldBytes f) i
    | none => byteAt (s.fieldBytes f) i

/-- A read of the first byte of a field of more than one byte latches the whole field; of the incident head,
with a record in the queue, it sets the head mark (R172, R181). -/
def State.latchField (s : State) (f : Field) : State :=
  if f.size = 1 then s
  else
    { s with
      port.latch := some (f, s.fieldBytes f)
      incidents.headMark :=
        s.incidents.headMark || (decide (f = .incidentHead) && s.incidentFlag) }

/-- A read of the incident head's last byte with the head mark set removes the head record (R172). -/
def State.removeHeadRecord (s : State) : State :=
  if s.incidents.headMark then
    { s with incidents.records := s.incidents.records.tail, incidents.headMark := false }
  else s

/-- The effect of a read at an offset on the latch and the incident queue (R172, R181). -/
def State.readEffect (s : State) (offset : BitVec 16) : State :=
  match fieldAt offset with
  | none => s
  | some (f, i) =>
    if i = 0 then s.latchField f
    else if f = .incidentHead ∧ i = 22 then s.removeHeadRecord
    else s

/-- The port sends the byte at `offset`, and the window offset is the next one (R180, R181). -/
def State.sendAt (s : State) (offset : BitVec 16) : State :=
  let t := s.readEffect offset
  { t with port.sent := s.readByte offset, port.offset := offset + 1 }

/-- The offset of the incident head's last byte (R196). -/
def incidentHeadLast : BitVec 16 := 0x00A6

/-- The offset of the incident head's first byte (R196). -/
def incidentHeadFirst : BitVec 16 := 0x0090

/-- I2C_ADDRESS (R178). -/
def execI2cAddress (address : BitVec 7) (direction : I2cDirection) (s : State) :
    Host.Outcome State Fault Refusal :=
  .next (s.whenRunning fun s => s.i2cAddress address direction)

/-- OFFSET_WRITE (R179). -/
def execOffsetWrite (high low : Byte) (s : State) : Host.Outcome State Fault Refusal :=
  .next (s.whenRunning fun s => s.offsetWrite high low)

/-- TRANSFER_END (R182). -/
def execTransferEnd (s : State) : Host.Outcome State Fault Refusal :=
  .next (s.whenRunning State.transferEnd)

/-- WINDOW_WRITE (R182). -/
def execWindowWrite (b : Byte) (s : State) : Host.Outcome State Fault Refusal :=
  .next (s.whenRunning fun s => s.windowWrite b)

/-- FIELD_LATCH: in a read transfer the port sends the byte at the window offset; at a field's first byte
that latches the field (R180, R181). The table has no other row for a byte read, so this one stands for
each (log entry 12). DESIGN CHOICE (unsafe): the command carries no acknowledge of the master, so one given after
the master's not-acknowledge and before the STOP or repeated START still sends; the bus itself gives none there
(busByte; log entry 19). -/
def execFieldLatch (s : State) : Host.Outcome State Fault Refusal :=
  .next (s.whenRunning fun s =>
    match s.port.bus with
    | .reading => s.sendAt s.port.offset
    | .idle | .awaitOffset | .writing => s)

/-- INCIDENT_HEAD_LATCH: a read of the incident head's first byte (R172). -/
def execIncidentHeadLatch (s : State) : Host.Outcome State Fault Refusal :=
  .next (s.whenRunning fun s => s.sendAt incidentHeadFirst)

/-- INCIDENT_HEAD_REMOVE: a read of the incident head's last byte (R172). -/
def execIncidentHeadRemove (s : State) : Host.Outcome State Fault Refusal :=
  .next (s.whenRunning fun s => s.sendAt incidentHeadLast)

end Sys2Proof.Machine
end

