-- ==== Sys2Proof/Machine/Requests.lean ====
section
/-! DEFINITION. The intake: checks, refusals, classification, placement, retry and the stall report
(chapter 4). -/

namespace Sys2Proof.Machine

/-- The kind of a well-formed request; a request of unknown kind is malformed (R6). -/
def requestKind (req : FabricRequest) : Kind := (kindOfCode req.kindCode).getD .read

/-- The number of data lines a request's kind asks for (R6 reason 6). -/
def expectedLines (kind : Kind) (length : Nat) : Nat :=
  match kind with
  | .read => 0
  | .write => length
  | .atomic => 1

/-- The malformation reason, 1..6: the first condition of R6 that holds; none for a well-formed request. -/
def malformation (req : FabricRequest) : Option Nat :=
  match kindOfCode req.kindCode with
  | none => some 1
  | some kind =>
    let length := req.lengthField.toNat
    if length = 0 ∨ 16 < length then some 2
    else if req.address.toNat % 64 ≠ 0 then some 3
    else if kind = .atomic ∧ length ≠ 1 then some 4
    else if 64 < lineIndex req.address + length then some 5
    else if req.data.length ≠ expectedLines kind length then some 6
    else none

/-- A match entry matches a request's kind (R65). -/
def kindMatches (m : MatchEntry) : Kind → Bool
  | .read => m.reads
  | .write => m.writes
  | .atomic => m.atomics

/-- A match entry matches a request: enabled, the source and the start page in its ranges, the kind in its
set (R65). -/
def entryMatches (m : MatchEntry) (source : BitVec 6) (page : BitVec 28) (kind : Kind) : Bool :=
  m.enabled && decide (m.sourceLow ≤ source) && decide (source ≤ m.sourceHigh)
    && decide (m.pageLow ≤ page) && decide (page ≤ m.pageHigh) && kindMatches m kind

/-- The class of a request: that of the lowest-numbered matching entry of the active bank, or the default
class (R65). -/
def State.classify (s : State) (source : BitVec 6) (page : BitVec 28) (kind : Kind) : ClassId :=
  match s.map.activeBank.toList.find? (fun m => entryMatches m source page kind) with
  | some m => m.cls
  | none => s.map.defaultClass

/-- Refuse a request: the intake becomes REJECTING and joins the answer list, the refusal is counted and its
incident raised, and the response channel makes its choice (R59, R63, R150). -/
def State.refuseRequest (s : State) (req : FabricRequest) (owed : RefusalStatus) (count : GlobalCounter)
    (body : IncidentBody) : State :=
  ((((s.setIntake (.rejecting req.source req.tag owed)).joinAnswers [.intake]).countGlobal count
    1).raise body).chooseOffer

/-- The MALFORMED incident: the source and tag, the address as sent, and the reason (R59). -/
def malformedIncident (req : FabricRequest) (reason : Nat) : IncidentBody :=
  { kind := .malformed, cls := none, pair := some (req.source, req.tag), slot := none
    address := some req.address, detail := detailBytes reason 0 0 }

/-- The code of the owner kind a tag check found (R196). -/
def TagOwner.code : TagOwner → Nat
  | .holdEntry => 1
  | .slot _ => 2
  | .responseReturn => 3

/-- The slot a tag check found, where the owner is one (R63). -/
def TagOwner.slot? : TagOwner → Option SlotId
  | .slot k => some k
  | .holdEntry | .responseReturn => none

/-- The TAG_REUSE incident: the source and tag, the address, the owner kind, and the slot where the owner is
one (R63). -/
def tagReuseIncident (req : FabricRequest) (owner : TagOwner) : IncidentBody :=
  { kind := .tagReuse, cls := none, pair := some (req.source, req.tag), slot := owner.slot?
    address := some req.address, detail := detailBytes owner.code 0 0 }

/-- An accepted request as the intake register holds it, its arrival and its stall start at the present
time (R56, R58, R68). -/
def State.accepted (s : State) (req : FabricRequest) : StalledRequest :=
  { source := req.source, tag := req.tag
    cls := s.classify req.source (startPage req.address) (requestKind req)
    kind := requestKind req, address := req.address, length := req.lengthField.toNat
    arrival := s.time, data := req.data, stallStart := s.time, reported := false }

/-- Accept a request: it is classified and offered to the pool; where the first placement test fails the
intake is STALLED (R58, R68). -/
def State.acceptRequest (s : State) (req : FabricRequest) : State :=
  match s.tryPlace (s.accepted req).toRecord with
  | some t => t
  | none => s.setIntake (.stalled (s.accepted req))

/-- FABRIC_REQUEST_ARRIVAL: an EMPTY intake with the fabric link UP takes the request, refuses it as
malformed or for tag reuse, or accepts it (R7, R58). In any other state the offer waits outside. -/
def State.arrive (s : State) (req : FabricRequest) : State :=
  match s.intake.register, s.ret.link with
  | .empty, .up =>
    match malformation req with
    | some reason => s.refuseRequest req .malformed .malformed (malformedIncident req reason)
    | none =>
      match s.tagOwner? req.source req.tag with
      | some owner => s.refuseRequest req .tagReuse .tagReuse (tagReuseIncident req owner)
      | none => s.acceptRequest req
  | _, _ => s

/-- FABRIC_REQUEST_ARRIVAL (R58). -/
def execFabricRequestArrival (req : FabricRequest) (s : State) : Host.Outcome State Fault Refusal :=
  .next (s.whenRunning fun s => s.arrive req)

/-- PLACEMENT_RETRY: the intake offers its STALLED request again (R69). -/
def execPlacementRetry (s : State) : Host.Outcome State Fault Refusal :=
  .next (s.whenRunning State.retryPlacement)

/-- INTAKE_STALL: the elapsed stall time reaches the limit (R71). -/
def execIntakeStall (s : State) : Host.Outcome State Fault Refusal :=
  .next (s.whenRunning State.reportStall)

end Sys2Proof.Machine
end

