-- ==== Sys2Proof/Machine/Reset.lean ====
section
/-! DEFINITION. The resets and the time count (R2, R189, R190). -/

namespace Sys2Proof.Machine

/-- The reset count after one more assertion of RESET_N; it stays at 255 (R190). -/
def nextResetCount (n : BitVec 8) : BitVec 8 := if n = 255 then 255 else n + 1

/-- POWER_ON_RESET: every piece of state takes its reset value and the part is held in reset (R189, R190).
The sampled straps are kept until the reset ends (R178). The queue of waiting commands is the sender's and
stays. -/
def execPowerOnReset (s : State) : Host.Outcome State Fault Refusal :=
  .next { State.reset with
    phase := .powerOn
    port.straps := s.port.straps
    draws := s.draws
    pending := s.pending }

/-- RESET_N low for `lowNs` ns: below 1 µs it is not taken; while a reset is in effect it is part of it;
otherwise every piece of state takes its reset value, both links are DOWN, and the reset-cause record is
updated. The sampled straps are kept until the reset ends (R178, R189, R190). -/
def execResetNAssertion (lowNs : Nat) (s : State) : Host.Outcome State Fault Refusal :=
  if lowNs < Config.resetFilterNs then .next s
  else
    .next (s.whenRunning fun s =>
      { State.reset with
        phase := .pin
        port.straps := s.port.straps
        cause :=
          { current := .resetPin, previous := s.cause.current, count := nextResetCount s.cause.count }
        draws := s.draws
        pending := s.pending })

/-- RESET_END: the straps are sampled and the part runs; the time count starts from 0 (R178, R189). -/
def execResetEnd (straps : BitVec 2) (s : State) : Host.Outcome State Fault Refusal :=
  .next (match s.phase with
    | .running => s
    | .powerOn | .pin => { s with phase := .running, port.straps := straps })

/-- TIME_COUNT_ADVANCE: the time count advances by one and wraps to 0 (R2). -/
def execTimeCountAdvance (s : State) : Host.Outcome State Fault Refusal :=
  .next (s.whenRunning fun s => { s with time := s.time + 1 })

end Sys2Proof.Machine
end

