-- ==== Sys2Proof/Machine/Return.lean ====
section
/-! DEFINITION. What happens when the fabric takes a response (chapter 8). -/

namespace Sys2Proof.Machine

/-- The total time of a COMPLETION response enters its class's histogram; a SUPERSEDE response enters none
(R144, R159). -/
def State.enterTotal (s : State) (r : RealResponse) : State :=
  match r.origin with
  | .completion =>
    s.countClass r.cls (.bin (histogramBin s.stats.boundaries (s.elapsed r.arrival))) 1
  | .supersede => s

/-- REAL_RESPONSE_LEAVES: the fabric takes the real response on offer. The register is EMPTY, the turn
names ANSWER, the total time is measured, and the channel makes its next choice (R144). -/
def State.realLeaves (s : State) : State :=
  match s.ret.channel, s.ret.register with
  | .real, .matched r =>
    ({ s with ret.register := .empty, ret.channel := .idle, ret.turn := .answer }.enterTotal
      r).chooseOffer
  | _, _ => s

/-- The transition an owner completes as its answer leaves (R148): the intake is EMPTY, a CANCELLING entry
is FREE, an EXPIRED slot owes nothing, a LOST slot is FREE. -/
def State.ownerAnswered (s : State) : Owner → State
  | .intake =>
    match s.intake.register with
    | .rejecting _ _ _ => s.setIntake .empty
    | .empty | .stalled _ => s
  | .entry e =>
    match s.pool.entries[e] with
    | .cancelling _ => s.setEntry e .free
    | .free | .queued _ => s
  | .slot k =>
    match s.transit.slots[k].state with
    | .expired r true => s.setSlotState k (.expired r false)
    | .lost _ => s.setSlotState k .free
    | .expired _ false | .free | .inFlight _ _ _ => s

/-- ANSWER_LEAVES: the fabric takes the answer of the list's head. The reference leaves the list, its owner
completes its transition, the turn names REAL, and the channel makes its next choice (R148). -/
def State.answerLeaves (s : State) : State :=
  match s.ret.channel, s.ret.answers with
  | .answer, o :: rest =>
    ({ s with ret.answers := rest, ret.channel := .idle, ret.turn := .real }.ownerAnswered
      o).chooseOffer
  | _, _ => s

/-- REAL_RESPONSE_LEAVES (R144). -/
def execRealResponseLeaves (s : State) : Host.Outcome State Fault Refusal :=
  .next (s.whenRunning State.realLeaves)

/-- ANSWER_LEAVES (R148). -/
def execAnswerLeaves (s : State) : Host.Outcome State Fault Refusal :=
  .next (s.whenRunning State.answerLeaves)

end Sys2Proof.Machine
end

