-- ==== Sys2Proof/Machine/Snapshots.lean ====
section
/-! DEFINITION. The auto-snapshot timer (R166). -/

namespace Sys2Proof.Machine

/-- The auto-snapshot timer runs and its interval has passed (R166). -/
def State.autoDue (s : State) : Bool :=
  decide (s.stats.autoInterval ≠ 0)
    && s.reached s.stats.timerStart (s.stats.autoInterval.toNat * 1000)

/-- An expiry: with the bank EMPTY a snapshot is taken, with it LOCKED the snapshot is skipped, counted and
reported; the timer starts again at the present time (R166). -/
def State.autoExpiry (s : State) : State :=
  let t :=
    match s.stats.bank.state with
    | .empty => s.takeSnapshot
    | .locked =>
      (s.countGlobal .snapshotsMissed 1).raise (plainIncident .snapshotMissed s.stats.bank.time)
  { t with stats.timerStart := s.time }

/-- AUTO_SNAPSHOT_EXPIRY (R166). -/
def execAutoSnapshotExpiry (s : State) : Host.Outcome State Fault Refusal :=
  .next (s.whenRunning fun s => if s.autoDue then s.autoExpiry else s)

end Sys2Proof.Machine
end

