-- ==== Sys2Proof/Machine/Transit.lean ====
section
/-! DEFINITION. Deadlines, memory's responses and their matching, and the completion of a quiesce
(chapters 6 and 7). -/

namespace Sys2Proof.Machine

/-- An incident about the request a slot holds (R123, R124, R128, R129). -/
def slotIncident (kind : IncidentKind) (k : SlotId) (r : SlotRecord) (detail : BitVec 32) :
    IncidentBody :=
  { kind := kind, cls := some r.cls, pair := some (r.source, r.tag), slot := some k
    address := some r.address, detail := detail }

/-- The guard is ANSWER (R192); any other code reads as WATCH (log entry 13). -/
def SlotRecord.answers (r : SlotRecord) : Bool := decide (r.guard = 1)

/-- The expiry of an IN_FLIGHT slot: the timeout is counted; under WATCH the overdue flag is set, under
ANSWER the slot becomes EXPIRED owing TIMEOUT and joins the answer list, and a quiesce may complete
(R122, R123, R124). -/
def State.expire (s : State) (k : SlotId) (r : SlotRecord) (deadlineTime : Time) : State :=
  let t := s.countClass r.cls .timeouts 1
  if r.answers then
    (((t.setSlotState k (.expired r true)).joinAnswers [.slot k]).raise
      (slotIncident .deadlineAnswered k r (r.deadline.setWidth 32))).completeQuiesce.chooseOffer
  else
    (t.setSlotState k (.inFlight r (some deadlineTime) true)).raise
      (slotIncident .deadlineWatched k r (r.deadline.setWidth 32))

/-- DEADLINE_EXPIRY of a slot: taken when it is IN_FLIGHT with a deadline time, not overdue, and the time
count has reached that time (R122). -/
def State.expireSlot (s : State) (k : SlotId) : State :=
  match s.transit.slots[k].state with
  | .inFlight r (some deadlineTime) false =>
    if s.reached r.forwardTime r.deadline.toNat then s.expire k r deadlineTime else s
  | .inFlight _ _ _ | .free | .expired _ _ | .lost _ => s

/-- DEADLINE_EXPIRY (R122). -/
def execDeadlineExpiry (k : SlotId) (s : State) : Host.Outcome State Fault Refusal :=
  .next (s.whenRunning fun s => s.expireSlot k)

/-- MEMORY_RESPONSE_TAKEN: the memory port takes an offered response when the return register is EMPTY and
the memory link is UP; otherwise the offer waits outside (R14, R142). -/
def State.takeResponse (s : State) (resp : MemResponse) : State :=
  match s.ret.register, s.mem.link with
  | .empty, .up => { s with ret.register := .unmatched resp }
  | _, _ => s

/-- MEMORY_RESPONSE_TAKEN (R14). -/
def execMemoryResponseTaken (resp : MemResponse) (s : State) : Host.Outcome State Fault Refusal :=
  .next (s.whenRunning fun s => s.takeResponse resp)

/-- The lines an OKAY response is expected to carry (R14). -/
def responseLines (r : SlotRecord) : Nat :=
  match r.kind with
  | .read => r.length
  | .atomic => 1
  | .write => 0

/-- A response judged against a slot's kind and length: an OKAY with the expected lines stands; any other
OKAY, and a MEMFAULT, is MEMFAULT with no data (R14). -/
def judgeResponse (r : SlotRecord) (resp : MemResponse) : MemStatus × List Line :=
  match resp.status with
  | .okay => if resp.data.length = responseLines r then (.okay, resp.data) else (.memfault, [])
  | .memfault => (.memfault, [])

/-- The matched real response the return register keeps (R143). -/
def matchedResponse (r : SlotRecord) (resp : MemResponse) (origin : Origin) : RealResponse :=
  { source := r.source, tag := r.tag, status := (judgeResponse r resp).1
    data := (judgeResponse r resp).2, cls := r.cls, arrival := r.arrival, origin := origin }

/-- A completion or a supersede frees the slot and hands the response to the response return block
(R127, R128). -/
def State.deliver (s : State) (k : SlotId) (r : SlotRecord) (resp : MemResponse) (origin : Origin) :
    State :=
  { s.setSlotState k .free with ret.register := .matched (matchedResponse r resp origin) }

/-- A completion: the memory time is offered and the completion counted, in time or overdue (R127). -/
def State.complete (s : State) (k : SlotId) (r : SlotRecord) (overdue : Bool) (resp : MemResponse) :
    State :=
  let t := s.deliver k r resp .completion
  let t := t.offerMemory r.cls (s.time - r.forwardTime)
  let t := t.countClass r.cls (if overdue then .overdueCompleted else .completedInTime) 1
  t.completeQuiesce.chooseOffer

/-- A slot's reference leaves the answer list wherever it stands; if its answer was on offer, the offer is
withdrawn without leaving (R128, R149). -/
def State.withdrawAnswer (s : State) (k : SlotId) : State :=
  { s with
    ret.answers := s.ret.answers.filter (fun o => decide (o ≠ .slot k))
    ret.channel :=
      if s.ret.channel = .answer ∧ s.ret.answers.head? = some (.slot k) then .idle
      else s.ret.channel }

/-- A supersede: the owed answer is withdrawn and memory's response takes its place (R128). -/
def State.supersede (s : State) (k : SlotId) (r : SlotRecord) (resp : MemResponse) : State :=
  let t := (s.withdrawAnswer k).deliver k r resp .supersede
  let t := (t.countClass r.cls .lateDelivered 1).raise (slotIncident .lateResponse k r 0)
  t.chooseOffer

/-- A late absorption: the response is discarded and the slot becomes FREE (R129). -/
def State.absorb (s : State) (k : SlotId) (r : SlotRecord) : State :=
  let t := { s.setSlotState k .free with ret.register := .empty }
  (t.countClass r.cls .lateResponses 1).raise (slotIncident .lateResponse k r 1)

/-- A stray match: the response is discarded and no slot changes (R130). -/
def State.stray (s : State) (k : SlotId) (resp : MemResponse) : State :=
  let slot := s.transit.slots[k]
  ({ s with ret.register := .empty }.countGlobal .stray 1).raise
    { kind := .strayResponse, cls := none, pair := none, slot := some k, address := none
      detail := detailBytes (tagEpoch resp.tag).toNat slot.epoch.toNat (slotCode slot.state) }

/-- The match of a response against the slot and epoch of its downstream tag (R126). -/
def State.matchWith (s : State) (resp : MemResponse) : State :=
  let k := tagSlot resp.tag
  if s.transit.slots[k].epoch = tagEpoch resp.tag then
    match s.transit.slots[k].state with
    | .inFlight r _ overdue => s.complete k r overdue resp
    | .expired r true => s.supersede k r resp
    | .lost r => s.supersede k r resp
    | .expired r false => s.absorb k r
    | .free => s.stray k resp
  else s.stray k resp

/-- MATCH: the transit table takes an UNMATCHED response (R126, R142). -/
def execMatch (s : State) : Host.Outcome State Fault Refusal :=
  .next (s.whenRunning fun s =>
    match s.ret.register with
    | .unmatched resp => s.matchWith resp
    | .empty | .matched _ => s)

/-- QUIESCE_COMPLETION: in QUIESCING with no IN_FLIGHT slot the quiesce completes; in any other state the
event does nothing (R113, R115). -/
def execQuiesceCompletion (s : State) : Host.Outcome State Fault Refusal :=
  .next (s.whenRunning State.completeQuiesce)

end Sys2Proof.Machine
end

