-- ==== Sys2Proof/Machine/Dispatch.lean ====
section
/-! DEFINITION. One arm per command. -/

namespace Sys2Proof.Machine

-- The effect of a command on everything but the queue of waiting commands.
def exec (i : Instr) (s : State) : Host.Outcome State Fault Refusal :=
  match i with
  | .powerOnReset => Sys2Proof.Machine.execPowerOnReset s
  | .resetNAssertion lowNs => Sys2Proof.Machine.execResetNAssertion lowNs s
  | .resetEnd straps => Sys2Proof.Machine.execResetEnd straps s
  | .fabricLinkUp => Sys2Proof.Machine.execFabricLinkUp s
  | .fabricLinkDown => Sys2Proof.Machine.execFabricLinkDown s
  | .memoryLinkUp => Sys2Proof.Machine.execMemoryLinkUp s
  | .memoryLinkDown => Sys2Proof.Machine.execMemoryLinkDown s
  | .creditGrant countMinusOne => Sys2Proof.Machine.execCreditGrant countMinusOne s
  | .creditReturn countMinusOne => Sys2Proof.Machine.execCreditReturn countMinusOne s
  | .fabricRequestArrival req => Sys2Proof.Machine.execFabricRequestArrival req s
  | .placementRetry => Sys2Proof.Machine.execPlacementRetry s
  | .intakeStall => Sys2Proof.Machine.execIntakeStall s
  | .periodBoundary cls => Sys2Proof.Machine.execPeriodBoundary cls s
  | .forwarding => Sys2Proof.Machine.execForwarding s
  | .sendCompletion => Sys2Proof.Machine.execSendCompletion s
  | .deadlineExpiry slot => Sys2Proof.Machine.execDeadlineExpiry slot s
  | .memoryResponseTaken resp => Sys2Proof.Machine.execMemoryResponseTaken resp s
  | .matchResponse => Sys2Proof.Machine.execMatch s
  | .quiesceCompletion => Sys2Proof.Machine.execQuiesceCompletion s
  | .realResponseLeaves => Sys2Proof.Machine.execRealResponseLeaves s
  | .answerLeaves => Sys2Proof.Machine.execAnswerLeaves s
  | .autoSnapshotExpiry => Sys2Proof.Machine.execAutoSnapshotExpiry s
  | .i2cAddress address direction => Sys2Proof.Machine.execI2cAddress address direction s
  | .offsetWrite high low => Sys2Proof.Machine.execOffsetWrite high low s
  | .transferEnd => Sys2Proof.Machine.execTransferEnd s
  | .windowWrite byte => Sys2Proof.Machine.execWindowWrite byte s
  | .fieldLatch => Sys2Proof.Machine.execFieldLatch s
  | .incidentHeadLatch => Sys2Proof.Machine.execIncidentHeadLatch s
  | .incidentHeadRemove => Sys2Proof.Machine.execIncidentHeadRemove s
  | .stagedSettingWrite cls field value => Sys2Proof.Machine.execStagedSettingWrite cls field value s
  | .shadowEntryWrite index value => Sys2Proof.Machine.execShadowEntryWrite index value s
  | .defaultClassWrite value => Sys2Proof.Machine.execDefaultClassWrite value s
  | .stallLimitWrite value => Sys2Proof.Machine.execStallLimitWrite value s
  | .autoSnapshotIntervalWrite value => Sys2Proof.Machine.execAutoSnapshotIntervalWrite value s
  | .histogramBoundariesWrite values => Sys2Proof.Machine.execHistogramBoundariesWrite values s
  | .alertFlagsWrite value => Sys2Proof.Machine.execAlertFlagsWrite value s
  | .alertEnablesWrite value => Sys2Proof.Machine.execAlertEnablesWrite value s
  | .quiesce argument => Sys2Proof.Machine.execQuiesce argument s
  | .resume argument => Sys2Proof.Machine.execResume argument s
  | .mapSwap argument => Sys2Proof.Machine.execMapSwap argument s
  | .classCommit argument => Sys2Proof.Machine.execClassCommit argument s
  | .classApply argument => Sys2Proof.Machine.execClassApply argument s
  | .classDiscard argument => Sys2Proof.Machine.execClassDiscard argument s
  | .purge argument => Sys2Proof.Machine.execPurge argument s
  | .snapshot argument => Sys2Proof.Machine.execSnapshot argument s
  | .snapshotRelease argument => Sys2Proof.Machine.execSnapshotRelease argument s
  | .statsClear argument => Sys2Proof.Machine.execStatsClear argument s
  | .incidentsClear argument => Sys2Proof.Machine.execIncidentsClear argument s
  | .defaults argument => Sys2Proof.Machine.execDefaults argument s
  | .timeCountAdvance => Sys2Proof.Machine.execTimeCountAdvance s
  | .unknownCommandCode code argument => Sys2Proof.Machine.execUnknownCommandCode code argument s

end Sys2Proof.Machine
end

