-- ==== Sys2Proof/Machine/Bus.lean ====
section
/-! DEFINITION. The I2C bus before the port: what the levels of SCL and SDA signal, the bytes the signals
carry, and the commands of the port those bytes spell (R178, R179, R180, R182). -/

namespace Sys2Proof.Machine

/-! ## Levels and signals -/

/-- The levels of the two bus lines at one moment; true is high (R178). -/
structure BusLevels where
  scl : Bool
  sda : Bool
  deriving DecidableEq, Repr

/-- What the lines signal: a START, a bit, or a STOP (R178). -/
inductive BusSignal where
  | start
  | bit (b : Bool)
  | stop
  deriving DecidableEq, Repr

/-- What one moment signals after another: SDA falling while SCL is high is a START, SDA rising while SCL is
high is a STOP, and a bit is the level of SDA taken as SCL goes high (R178; log entry 21). -/
def busSignal (before now : BusLevels) : Option BusSignal :=
  match before.scl, now.scl with
  | true, true =>
    match before.sda, now.sda with
    | true, false => some .start
    | false, true => some .stop
    | true, true | false, false => none
  | false, true => some (.bit now.sda)
  | true, false | false, false => none

/-- The signals of the moments that follow a first one (R178). -/
def busSignals : BusLevels → List BusLevels → List BusSignal
  | _, [] => []
  | before, now :: rest => (busSignal before now).toList ++ busSignals now rest

/-! ## Bytes -/

/-- What the signals carry: a START, a byte with whether its receiver acknowledged it, or a STOP (R178). -/
inductive BusEvent where
  | start
  | byte (b : Byte) (acknowledged : Bool)
  | stop
  deriving DecidableEq, Repr

/-- The byte that bits spell, most significant first (R178). -/
def byteOfBits (bits : List Bool) : Byte := BitVec.ofNat 8 (bits.foldl (fun n b => 2 * n + bit b) 0)

/-- The events of a list of signals, with the bits of the byte in progress: eight bits are a byte, and the
ninth is its acknowledge, which a low SDA gives. A START or STOP in the middle of a byte drops it
(R178, R182). -/
def busEvents : List Bool → List BusSignal → List BusEvent
  | _, [] => []
  | _, .start :: rest => .start :: busEvents [] rest
  | _, .stop :: rest => .stop :: busEvents [] rest
  | bits, .bit b :: rest =>
    if bits.length < 8 then busEvents (bits ++ [b]) rest
    else .byte (byteOfBits bits) (!b) :: busEvents [] rest

/-! ## Commands -/

/-- What the part makes of the next byte: nothing before a START; nothing until the next START or STOP; an
address; the first offset byte; the second; a window byte; a byte it sends (R178, R179, R180). -/
inductive BusPhase where
  | idle
  | ignoring
  | addressing
  | offsetHigh
  | offsetLow (high : Byte)
  | writing
  | reading
  deriving DecidableEq, Repr

/-- The target address in the first byte after a START: its upper seven bits (R178). -/
def firstByteAddress (b : Byte) : BitVec 7 := b.extractLsb' 1 7

/-- The direction in the first byte after a START: its least significant bit, 0 for write (R178). -/
def firstByteDirection (b : Byte) : I2cDirection := if b.getLsbD 0 then .read else .write

/-- The phase after the first byte: a transfer at the part's own address, and nothing at any other
(R178). -/
def phaseAfterAddress (target : BitVec 7) (b : Byte) : BusPhase :=
  if firstByteAddress b = target then
    match firstByteDirection b with
    | .write => .offsetHigh
    | .read => .reading
  else .ignoring

/-- The commands a byte spells, and the phase after it. In a read transfer the master's not-acknowledge is
the last byte's; what is clocked after it is ignored (R180; log entry 19). -/
def busByte (target : BitVec 7) (phase : BusPhase) (b : Byte) (acknowledged : Bool) :
    List Instr × BusPhase :=
  match phase with
  | .idle => ([], .idle)
  | .ignoring => ([], .ignoring)
  | .addressing =>
    ([.i2cAddress (firstByteAddress b) (firstByteDirection b)], phaseAfterAddress target b)
  | .offsetHigh => ([], .offsetLow b)
  | .offsetLow high => ([.offsetWrite high b], .writing)
  | .writing => ([.windowWrite b], .writing)
  | .reading => ([.fieldLatch], if acknowledged then .reading else .ignoring)

/-- The end of a transfer: a STOP, or a START when no STOP has come since the last one (R178, R182). -/
def busEnd : BusPhase → List Instr
  | .idle => []
  | .ignoring | .addressing | .offsetHigh | .offsetLow _ | .writing | .reading => [.transferEnd]

/-- The commands that the events of the bus spell to a part of the target address given
(R178, R179, R180, R182). -/
def busCommands (target : BitVec 7) : BusPhase → List BusEvent → List Instr
  | _, [] => []
  | phase, .start :: rest => busEnd phase ++ busCommands target .addressing rest
  | phase, .stop :: rest => busEnd phase ++ busCommands target .idle rest
  | phase, .byte b acknowledged :: rest =>
    (busByte target phase b acknowledged).1
      ++ busCommands target (busByte target phase b acknowledged).2 rest

/-- The commands of a piece of bus traffic that begins with both lines high and no transfer open. -/
def busTraffic (target : BitVec 7) (levels : List BusLevels) : List Instr :=
  busCommands target .idle (busEvents [] (busSignals ⟨true, true⟩ levels))

end Sys2Proof.Machine
end

