-- ==== Sys2Proof/Safety.lean ====
section
/-! DEFINITION. What a sound state of the 6408 is: the properties the manual says hold at every moment, each
as a predicate of State, and the words the statements about single commands are written in. -/

namespace Sys2Proof.Machine

/-! ## Requests -/

/-- A held request is one that R6 let pass: length 1..16, a line-aligned address, within its page, an
ATOMIC of one line, and the data lines its kind asks for (R18). -/
def HoldRecord.Sound (r : HoldRecord) : Prop :=
  1 ≤ r.length ∧ r.length ≤ 16 ∧ r.address.toNat % 64 = 0 ∧ lineIndex r.address + r.length ≤ 64
    ∧ (r.kind = .atomic → r.length = 1) ∧ r.data.length = expectedLines r.kind r.length

/-- Every held request, in the pool or in the intake register, is sound. -/
def State.RequestsSound (s : State) : Prop :=
  (∀ (e : EntryId) (r : HoldRecord), s.pool.entries[e].record? = some r → r.Sound)
    ∧ ∀ q : StalledRequest, s.intake.register = .stalled q → q.toRecord.Sound

/-- The write data buffer holds at most its 1024 lines (R32). -/
def State.BufferSound (s : State) : Prop := s.RequestsSound ∧ s.usedLines ≤ Config.bufferLines

/-! ## Queues and wait lists -/

/-- `order` is the placement order of the QUEUED entries: each class queue is its class's part of it, and an
entry waits on exactly the earlier entries that overlap it (R22, R24, R42, R45). -/
def State.PlacedInOrder (s : State) (order : List EntryId) : Prop :=
  order.Nodup
    ∧ (∀ e : EntryId, e ∈ order ↔ s.pool.entries[e].isQueued = true)
    ∧ (∀ c : ClassId, s.pool.queues[c] = order.filter (fun e => s.pool.entries[e].ofClass c))
    ∧ ∀ (b : EntryId) (rb : HoldRecord), s.pool.entries[b] = .queued rb →
        ∀ a : EntryId, a ∈ rb.waitList ↔
          List.Sublist [a, b] order
            ∧ ∃ ra : HoldRecord, s.pool.entries[a] = .queued ra ∧ rb.overlaps ra = true

/-- A head in BUDGET_WAIT has its waited-for-budget flag set (R97). -/
def State.HeadsNoted (s : State) : Prop :=
  ∀ (c : ClassId) (e : EntryId) (r : HoldRecord), s.headCondition c = .budgetWait →
    s.head? c = some e → s.pool.entries[e] = .queued r → r.waitedForBudget = true

/-! ## Settings and accounts -/

/-- Checks 1 to 5 of R79: the values a valid settings record holds (R76). -/
def Settings.Valid (r : Settings) : Prop :=
  r.mode.toNat ≤ 2 ∧ r.guard.toNat ≤ 1 ∧ r.priority.toNat ≤ 3 ∧ 1 ≤ r.period.toNat
    ∧ 1 ≤ r.limit.toNat ∧ r.limit.toNat ≤ 192 ∧ r.reservation.toNat ≤ 32
    ∧ r.reservation.toNat ≤ r.limit.toNat

/-- Every active copy, and every staged copy whose pending flag is set, is valid, and each class's larger of
active and pending reservation sum to at most 192 (R76, R80). -/
def State.SettingsSound (s : State) : Prop :=
  (∀ c : ClassId, s.budget[c].active.Valid ∧ (s.budget[c].pending = true → s.budget[c].staged.Valid))
    ∧ ((List.finRange 16).map (fun c : ClassId => s.budget[c].countedReservation)).sum
        ≤ Config.reservationTotal

/-- Every credit account lies between −15 and the cap of its active settings (R88). -/
def State.AccountsSound (s : State) : Prop :=
  s.RequestsSound
    ∧ ∀ c : ClassId, -15 ≤ s.budget[c].account ∧ s.budget[c].account ≤ s.budget[c].active.cap

/-! ## The memory port and the transit table -/

/-- Both credit counts are 0 unless the memory link is UP; in UP, granted is 1..64 and available is at most
granted (R99, R103). -/
def State.CreditsSound (s : State) : Prop :=
  match s.mem.link with
  | .down | .waitGrant => s.mem.granted = 0 ∧ s.mem.available = 0
  | .up => 1 ≤ s.mem.granted ∧ s.mem.granted ≤ 64 ∧ s.mem.available ≤ s.mem.granted

/-- Every IN_FLIGHT slot's deadline time is its forward time plus its captured deadline, absent when that
is 0, and it is overdue only under WATCH with a deadline time (R121, R123). -/
def State.DeadlinesSound (s : State) : Prop :=
  ∀ (k : SlotId) (r : SlotRecord) (d : Option Time) (overdue : Bool),
    s.transit.slots[k].state = .inFlight r d overdue →
      d = (if r.deadline = 0 then none else some (r.forwardTime + r.deadline.setWidth 32))
        ∧ (overdue = true → d.isSome = true ∧ r.answers = false)

/-- The forwarding order lists every IN_FLIGHT slot, and no slot twice (R136). -/
def State.OrderSound (s : State) : Prop :=
  s.transit.order.Nodup
    ∧ ∀ k : SlotId, s.transit.slots[k].state.isInFlight = true → k ∈ s.transit.order

/-! ## Obligations and the answer list -/

/-- The intake holds the obligation of a source and tag: a STALLED request's (R61). -/
def IntakeState.hasPair (source : BitVec 6) (tag : BitVec 8) : IntakeState → Bool
  | .stalled q => decide (q.source = source ∧ q.tag = tag)
  | .empty | .rejecting _ _ _ => false

/-- How many open obligations a source and tag have among all owners (R61). -/
def State.openObligations (s : State) (source : BitVec 6) (tag : BitVec 8) : Nat :=
  (s.intake.register.hasPair source tag).toNat
    + s.pool.entries.toList.countP (HoldEntry.hasPair source tag)
    + s.transit.slots.toList.countP (fun k => k.state.hasPair source tag)
    + (s.ret.register.hasPair source tag).toNat

/-- Each source and tag has at most one open obligation (R61). -/
def State.ObligationsSound (s : State) : Prop :=
  ∀ (source : BitVec 6) (tag : BitVec 8), s.openObligations source tag ≤ 1

/-- The answer list holds no owner twice, and holds exactly the owners that owe an answer (R146). -/
def State.AnswersSound (s : State) : Prop :=
  s.ret.answers.Nodup ∧ ∀ o : Owner, o ∈ s.ret.answers ↔ (s.answerOf o).isSome = true

/-- The response channel offers only what waits and only with the fabric link UP, and is never idle there
while something waits (R141, R150). -/
def State.ChannelSound (s : State) : Prop :=
  match s.ret.channel with
  | .real => s.ret.link = .up ∧ s.ret.register.isMatched = true
  | .answer => s.ret.link = .up ∧ s.ret.answers ≠ []
  | .idle => s.ret.link = .up → s.ret.register.isMatched = false ∧ s.ret.answers = []

/-- With the fabric link DOWN nothing is held and nothing is owed: the intake is EMPTY, the pool and its
queues are empty, no slot is IN_FLIGHT or owes an answer, the answer list is empty and no matched response
waits (R17, R153). -/
def State.FabricDownSound (s : State) : Prop :=
  s.ret.link = .down →
    s.intake.register = .empty ∧ (∀ e : EntryId, s.pool.entries[e] = .free)
      ∧ (∀ c : ClassId, s.pool.queues[c] = [])
      ∧ (∀ k : SlotId, s.transit.slots[k].state = .free
          ∨ ∃ r : SlotRecord, s.transit.slots[k].state = .expired r false)
      ∧ s.ret.answers = [] ∧ s.ret.register.isMatched = false

/-! ## Quiesce -/

/-- The command status is RUNNING exactly in QUIESCING, and then some slot is IN_FLIGHT (R113, R185). -/
def State.QuiesceSound (s : State) : Prop :=
  (s.port.status.state = .running ↔ s.arbiter.quiesce = .quiescing)
    ∧ (s.arbiter.quiesce = .quiescing → 0 < s.countSlots SlotState.isInFlight)

/-! ## Incidents, boundaries and the management port -/

/-- The incident queue holds at most 32 records and a mark only on a record; a record's sequence number is
its predecessor's plus its gap plus one, and the sequence counter stands so to the last record, wherever the
count of drops is below its largest value (R169, R171, R172). -/
def State.IncidentsSound (s : State) : Prop :=
  s.incidents.records.length ≤ 32
    ∧ (s.incidents.headMark = true → s.incidents.records ≠ [])
    ∧ (∀ p ∈ s.incidents.records.zip s.incidents.records.tail, p.2.gap ≠ 65535 →
        p.2.sequence = p.1.sequence + p.2.gap + 1)
    ∧ ∀ i : Incident, s.incidents.records.getLast? = some i → s.incidents.dropCount ≠ 65535 →
        s.incidents.sequence = i.sequence + s.incidents.dropCount + 1

/-- The histogram boundaries ascend strictly from at least 1 (R160). -/
def State.BoundariesSound (s : State) : Prop :=
  1 ≤ s.stats.boundaries[0].toNat
    ∧ ∀ i : Fin 6, (s.stats.boundaries[i.val]'(by omega)).toNat
        < (s.stats.boundaries[i.val + 1]'(by omega)).toNat

/-- The field latch holds a whole field of more than one byte; the write assembly holds a proper first part of
a writable field, and only in a write transfer (R181, R182). -/
def State.PortSound (s : State) : Prop :=
  (∀ (f : Field) (bytes : List Byte), s.port.latch = some (f, bytes) →
      1 < f.size ∧ bytes.length = f.size)
    ∧ ∀ (f : Field) (bytes : List Byte), s.port.assembly = some (f, bytes) →
        f.writable = true ∧ 0 < bytes.length ∧ bytes.length < f.size ∧ s.port.bus = .writing

/-! ## Words for the statements -/

/-- The condition of row `reason` of R6's table, by itself: what makes a request malformed. -/
def requestFails (req : FabricRequest) (reason : Nat) : Prop :=
  match reason with
  | 1 => kindOfCode req.kindCode = none
  | 2 => req.lengthField.toNat = 0 ∨ 16 < req.lengthField.toNat
  | 3 => req.address.toNat % 64 ≠ 0
  | 4 => kindOfCode req.kindCode = some .atomic ∧ req.lengthField.toNat ≠ 1
  | 5 => 64 < lineIndex req.address + req.lengthField.toNat
  | 6 =>
    (kindOfCode req.kindCode = some .read ∧ req.data ≠ [])
      ∨ (kindOfCode req.kindCode = some .write ∧ req.data.length ≠ req.lengthField.toNat)
      ∨ (kindOfCode req.kindCode = some .atomic ∧ req.data.length ≠ 1)
  | _ => False

/-- A match entry matches a request: enabled, source and start page within its ranges, the kind among its
kinds (R65). -/
def entryCovers (m : MatchEntry) (source : BitVec 6) (page : BitVec 28) (kind : Kind) : Prop :=
  m.enabled = true ∧ m.sourceLow.toNat ≤ source.toNat ∧ source.toNat ≤ m.sourceHigh.toNat
    ∧ m.pageLow.toNat ≤ page.toNat ∧ page.toNat ≤ m.pageHigh.toNat
    ∧ (match kind with
        | .read => m.reads
        | .write => m.writes
        | .atomic => m.atomics) = true

/-- Check `i` of R79's table passes for class `n`'s staged copy. -/
def State.checkPasses (s : State) (n : ClassId) (i : Nat) : Prop :=
  match i with
  | 1 => s.budget[n].staged.mode.toNat ≤ 2 ∧ s.budget[n].staged.guard.toNat ≤ 1
      ∧ s.budget[n].staged.priority.toNat ≤ 3
  | 2 => 1 ≤ s.budget[n].staged.period.toNat
  | 3 => 1 ≤ s.budget[n].staged.limit.toNat ∧ s.budget[n].staged.limit.toNat ≤ 192
  | 4 => s.budget[n].staged.reservation.toNat ≤ 32
  | 5 => s.budget[n].staged.reservation.toNat ≤ s.budget[n].staged.limit.toNat
  | 6 => s.budget[n].staged.reservation.toNat
      + (((List.finRange 16).filter (fun k : ClassId => decide (k ≠ n))).map (fun k : ClassId =>
          max s.budget[k].active.reservation.toNat
            (if s.budget[k].pending = true then s.budget[k].staged.reservation.toNat else 0))).sum
      ≤ 192
  | _ => True

/-- Entry `e` is the lowest-numbered FREE entry (R20). -/
def State.IsLowestFree (s : State) (e : EntryId) : Prop :=
  s.pool.entries[e] = .free ∧ ∀ e' : EntryId, e' < e → s.pool.entries[e'] ≠ .free

/-- Slot `k` is the lowest-numbered FREE slot (R120). -/
def State.IsLowestFreeSlot (s : State) (k : SlotId) : Prop :=
  s.transit.slots[k].state = .free ∧ ∀ k' : SlotId, k' < k → s.transit.slots[k'].state ≠ .free

/-- A hold entry with its waited-for-budget flag cleared: what is compared where only that flag may
change. -/
def HoldEntry.unflagged : HoldEntry → HoldEntry
  | .free => .free
  | .queued r => .queued { r with waitedForBudget := false }
  | .cancelling r => .cancelling r

/-- From `s` to `t` no live class counter or bin changed but those `except` names, and those only grew; no
saturated flag and no SATURATION alert was cleared, and none was set but by one of the named counters, which
then stands at its largest value (R157, R161). -/
structure State.CountsKept (s t : State) (except : ClassId → ClassCounter → Prop) : Prop where
  kept : ∀ (i : ClassId) (k : ClassCounter), ¬ except i k →
    t.stats.live[i].get k = s.stats.live[i].get k
  grows : ∀ (i : ClassId) (k : ClassCounter),
    (s.stats.live[i].get k).toNat ≤ (t.stats.live[i].get k).toNat
  saturated : ∀ i : ClassId, s.stats.live[i].saturated = true → t.stats.live[i].saturated = true
  newlySaturated : ∀ i : ClassId, t.stats.live[i].saturated = true → s.stats.live[i].saturated = true
    ∨ ∃ k : ClassCounter, except i k ∧ t.stats.live[i].get k = BitVec.allOnes 32
  alert : s.alerts.saturation = true → t.alerts.saturation = true
  newAlert : t.alerts.saturation = true → s.alerts.saturation = true
    ∨ ∃ (i : ClassId) (k : ClassCounter), except i k ∧ t.stats.live[i].get k = BitVec.allOnes 32

/-- From `s` to `t` no live maximum changed. -/
def State.MaximaKept (s t : State) : Prop :=
  ∀ i : ClassId, t.stats.live[i].maxHold = s.stats.live[i].maxHold
    ∧ t.stats.live[i].maxMemory = s.stats.live[i].maxMemory

/-- Entry `e` is QUEUED with its waited-for-budget flag set (R97). -/
def State.noted (s : State) (e : EntryId) : Bool :=
  match s.pool.entries[e] with
  | .queued r => r.waitedForBudget
  | .free | .cancelling _ => false

/-- The event from `s` to `t` set the waited-for-budget flag of the head of class `i` (R97). -/
def State.headNewlyNoted (s t : State) (i : ClassId) : Bool :=
  match t.head? i with
  | some e => t.noted e && !s.noted e
  | none => false

/-- The response channel after an event that leaves the port as in `t` and, but for the channel's choice, the
channel as `before`: an open offer stands; an idle channel with the link UP offers what waits, and where both
kinds wait the one the turn names (R141, R150). -/
def State.channelAfter (t : State) (before : ResponseChannel) : ResponseChannel :=
  if before ≠ .idle ∨ t.ret.link = .down then before
  else if t.ret.register.isMatched = true then
    if t.ret.answers = [] ∨ t.ret.turn = .real then .real else .answer
  else if t.ret.answers = [] then .idle
  else .answer

/-- The quiesce state after an event that leaves the slots as in `t`: a quiesce in QUIESCING completes when no
slot is IN_FLIGHT (R113). -/
def State.quiesceAfter (s t : State) : QuiesceState :=
  if s.arbiter.quiesce = .quiescing ∧ t.countSlots SlotState.isInFlight = 0 then .quiesced
  else s.arbiter.quiesce

/-- The port once a command of the register is taken at step 2 or later of R184: the register reads as
written and the status shows the outcome, its busy fields 0 (R183, R185). -/
def State.portAfter (s : State) (code argument : Byte) (state : CommandState) (reason : Reason)
    (detail : BitVec 16) : Port :=
  { s.port with
    commandCode := code
    commandArgument := argument
    status := ⟨state, code, argument, reason, detail, 0, 0⟩ }

/-- The code and argument bytes a command of the command register is written as (R193). -/
def commandBytes : Instr → Option (Byte × Byte)
  | .quiesce b => some (1, b)
  | .resume b => some (2, b)
  | .mapSwap b => some (3, b)
  | .classCommit b => some (4, b)
  | .classApply b => some (5, b)
  | .classDiscard b => some (6, b)
  | .purge b => some (7, b)
  | .snapshot b => some (8, b)
  | .snapshotRelease b => some (9, b)
  | .statsClear b => some (10, b)
  | .incidentsClear b => some (11, b)
  | .defaults b => some (12, b)
  | .unknownCommandCode code b => some (code, b)
  | _ => none

/-- The command takes a reset (R189). -/
def isReset : Instr → Bool
  | .powerOnReset | .resetNAssertion _ => true
  | _ => false

end Sys2Proof.Machine
end

