-- ==== Sys2Proof/Certificates/Slice0/Obligations.lean ====
section
/-! DEFINITION. The statements for the provers. Each docstring names the rules it formalises. -/

open Sys2Proof Sys2Proof.Machine

/-! ## The machine -/

/-- A step takes the command at the front of the queue and runs exec on it with the queue's rest, which exec
leaves alone; every command ends in a next state. On an empty queue the step idles, which is the model's
choice (log entry 1). -/
def Obligations.StepRunsFrontCommand : Prop :=
  ∀ (s : State) (c : Instr) (rest : List Instr),
    (s.pending = c :: rest → step s = exec c { s with pending := rest }
        ∧ ∃ t : State, step s = .next t ∧ t.pending = rest)
      ∧ (s.pending = [] → step s = .next s)

/-- The resets place every piece of state at its reset value but the reset-cause record, which is set as R190
gives; a low level below 1 µs is not taken, the straps are sampled as the reset ends, and while the part is
held in reset nothing else changes anything (R178, R189, R190). The model's choices, to which the manual gives
no value or outcome: the straps keep their value until the reset ends and a second RESET_N while one holds the
part does nothing (log entry 8), the timer's start is 0 (log entry 9), what SDA last carried is no acknowledge
and byte 0 (log entry 10), and the queue of waiting commands and the count of free values, which are the
model's own, stay (log entries 1, 11). -/
def Obligations.ResetsTakeResetValues : Prop :=
  ∀ (s : State) (lowNs : Nat) (straps : BitVec 2),
    exec .powerOnReset s = .next { State.reset with
        phase := .powerOn
        port.straps := s.port.straps
        cause := { current := .powerOn, previous := .powerOn, count := 0 }
        draws := s.draws
        pending := s.pending }
      ∧ (s.phase = .running → 1000 ≤ lowNs → exec (.resetNAssertion lowNs) s = .next { State.reset with
          phase := .pin
          port.straps := s.port.straps
          cause :=
            { current := .resetPin, previous := s.cause.current
              count := if s.cause.count = 255 then 255 else s.cause.count + 1 }
          draws := s.draws
          pending := s.pending })
      ∧ (lowNs < 1000 → exec (.resetNAssertion lowNs) s = .next s)
      ∧ (s.phase ≠ .running →
          exec (.resetEnd straps) s = .next { s with phase := .running, port.straps := straps }
            ∧ ∀ c : Instr, c ≠ .powerOnReset → (∀ p : BitVec 2, c ≠ .resetEnd p) →
                exec c s = .next s)

/-- The reset values the spec gives, one kind of state after another (R2, R18, R22, R64, R71, R76, R84, R86,
R99, R108, R112, R118, R140 to R150, R155, R156, R160, R162, R166, R169, R175, R176, R178, R185, R190). -/
def Obligations.ResetValues : Prop :=
  State.reset.time = 0
    ∧ State.reset.intake.register = .empty ∧ State.reset.intake.stallLimit = 0
    ∧ State.reset.map.active = .a ∧ State.reset.map.defaultClass = 0
    ∧ (∀ i : MapIndex, State.reset.map.bankA[i] = ⟨false, false, false, false, 0, 0, 0, 0, 0⟩
        ∧ State.reset.map.bankB[i] = ⟨false, false, false, false, 0, 0, 0, 0, 0⟩)
    ∧ (∀ e : EntryId, State.reset.pool.entries[e] = .free)
    ∧ (∀ c : ClassId, State.reset.pool.queues[c] = []
        ∧ State.reset.budget[c].active = ⟨0, 0, 0, 0, 1000, 0, 0, 0, 192⟩
        ∧ State.reset.budget[c].staged = ⟨0, 0, 0, 0, 1000, 0, 0, 0, 192⟩
        ∧ State.reset.budget[c].pending = false ∧ State.reset.budget[c].account = 0
        ∧ State.reset.budget[c].lastBoundary = 0)
    ∧ State.reset.arbiter.quiesce = .opened ∧ State.reset.arbiter.channel = none
    ∧ (∀ l : Fin 4, State.reset.arbiter.pointers[l] = 0)
    ∧ State.reset.mem = ⟨.down, 0, 0⟩
    ∧ (∀ k : SlotId, State.reset.transit.slots[k] = ⟨0, .free⟩)
    ∧ State.reset.ret = ⟨.down, .idle, .empty, [], .real⟩
    ∧ (∀ (c : ClassId) (k : ClassCounter), State.reset.stats.live[c].get k = 0
        ∧ State.reset.stats.live[c].maxHold = 0 ∧ State.reset.stats.live[c].maxMemory = 0
        ∧ State.reset.stats.live[c].saturated = false
        ∧ State.reset.stats.bank.classes[c] = State.reset.stats.live[c])
    ∧ (∀ k : GlobalCounter, State.reset.stats.globals.get k = 0)
    ∧ State.reset.stats.globals.saturated = false
    ∧ State.reset.stats.bank.globals = State.reset.stats.globals
    ∧ State.reset.stats.bank.state = .empty ∧ State.reset.stats.bank.time = 0
    ∧ State.reset.stats.bank.interval = 0 ∧ State.reset.stats.intervalStart = 0
    ∧ State.reset.stats.boundaries.toList = [1, 2, 4, 8, 16, 32, 64]
    ∧ State.reset.stats.autoInterval = 0
    ∧ State.reset.incidents = ⟨[], 0, 0, false⟩
    ∧ State.reset.alerts = ⟨false, false, false, ⟨false, false, false, false⟩⟩
    ∧ State.reset.alertLow = false
    ∧ State.reset.port.bus = .idle ∧ State.reset.port.offset = 0 ∧ State.reset.port.latch = none
    ∧ State.reset.port.assembly = none ∧ State.reset.port.commandCode = 0
    ∧ State.reset.port.commandArgument = 0
    ∧ State.reset.port.status = ⟨.idle, 0, 0, .none, 0, 0, 0⟩
    ∧ State.reset.cause = ⟨.powerOn, .powerOn, 0⟩

/-- The state right after reset meets every invariant stated below, that of the model's own list of allocations
(log entry 15) among them. -/
def Obligations.ResetMeetsTheInvariants : Prop :=
  State.reset.BufferSound ∧ State.reset.PlacedInOrder []
    ∧ State.reset.HeadsNoted ∧ State.reset.SettingsSound ∧ State.reset.AccountsSound
    ∧ State.reset.CreditsSound ∧ State.reset.DeadlinesSound ∧ State.reset.OrderSound
    ∧ State.reset.ObligationsSound ∧ State.reset.AnswersSound ∧ State.reset.ChannelSound
    ∧ State.reset.FabricDownSound ∧ State.reset.QuiesceSound ∧ State.reset.IncidentsSound
    ∧ State.reset.BoundariesSound ∧ State.reset.PortSound

/-! ## Invariants that every step keeps -/

/-- Held requests stay sound and the write data buffer stays within 1024 lines (R32, R18). -/
def Obligations.BufferKept : Prop :=
  ∀ s t : State, s.BufferSound → step s = .next t → t.BufferSound

/-- Wait lists go on holding exactly the earlier QUEUED entries that overlap, and class queues go on following
the placement order, which an event only extends at its end by the one entry it makes QUEUED, or thins by the
entries that leave: no two entries ever change places (R22, R24, R42, R44, R45). -/
def Obligations.PlacementOrderKept : Prop :=
  ∀ (s t : State) (order : List EntryId), s.PlacedInOrder order → step s = .next t →
    ∃ order' : List EntryId, t.PlacedInOrder order'
      ∧ (List.Sublist order' order
        ∨ ∃ e : EntryId, order' = order ++ [e] ∧ s.pool.entries[e] = .free
            ∧ t.pool.entries[e].isQueued = true)

/-- Active and pending settings stay valid and the larger of active and pending reservation of the sixteen
classes go on summing to at most 192 (R76, R80); a head in BUDGET_WAIT goes on having its waited-for-budget
flag set (R97). -/
def Obligations.BudgetUnitKept : Prop :=
  ∀ s t : State, step s = .next t →
    (s.SettingsSound → t.SettingsSound) ∧ (s.HeadsNoted → t.HeadsNoted)

/-- Every credit account stays between −15 and its cap (R88). -/
def Obligations.AccountsKept : Prop :=
  ∀ s t : State, s.AccountsSound → step s = .next t → t.AccountsSound

/-- Available memory credits never exceed the granted count, and both are 0 unless the memory link is UP (R99,
R103). -/
def Obligations.CreditsKept : Prop :=
  ∀ s t : State, s.CreditsSound → step s = .next t → t.CreditsSound

/-- The deadline time of a slot in flight stays forward time plus captured deadline, and overdue is set only
under WATCH (R121, R123); the forwarding order, which the model holds as a list (log entry 15), goes on
listing every slot in flight, none twice (R136). -/
def Obligations.FlightRecordsKept : Prop :=
  ∀ s t : State, step s = .next t →
    (s.DeadlinesSound → t.DeadlinesSound) ∧ (s.OrderSound → t.OrderSound)

/-- At every moment, each source and tag has at most one open obligation; one opens only at the arrival of a
well-formed request of that source and tag, and only where none is open (R61). -/
def Obligations.OneObligationPerPair : Prop :=
  (∀ s t : State, s.ObligationsSound → step s = .next t → t.ObligationsSound)
    ∧ ∀ (c : Instr) (s t : State) (source : BitVec 6) (tag : BitVec 8), exec c s = .next t →
        s.openObligations source tag < t.openObligations source tag →
        s.openObligations source tag = 0 ∧ t.openObligations source tag = 1
          ∧ ∃ req : FabricRequest, c = .fabricRequestArrival req ∧ req.source = source
            ∧ req.tag = tag ∧ malformation req = none

/-- The answer list goes on holding exactly the owners that owe an answer, each once (R145, R146). The premise
`OrderSound` is about the model's own list of allocations (log entry 15). -/
def Obligations.AnswerListKept : Prop :=
  ∀ (s t : State) (order : List EntryId), s.PlacedInOrder order → s.OrderSound → s.AnswersSound →
    step s = .next t → t.AnswersSound

/-- With the fabric link DOWN nothing is held and nothing is owed (R17, R153); and the response channel goes
on offering only what waits, and is never idle with the fabric link UP while something waits (R141, R150). -/
def Obligations.FabricPortKept : Prop :=
  ∀ s t : State, step s = .next t → s.FabricDownSound →
    t.FabricDownSound ∧ (s.ChannelSound → t.ChannelSound)

/-- RUNNING goes on meaning a quiesce in QUIESCING, which waits on some slot in flight (R113, R185). -/
def Obligations.QuiesceStatusKept : Prop :=
  ∀ s t : State, s.QuiesceSound → step s = .next t → t.QuiesceSound

/-- The incident queue stays within 32 records and sequence numbers go on agreeing with gaps (R169, R171); the
histogram boundaries stay strictly ascending from at least 1 (R160); the field latch and the write assembly
stay parts of one field (R181, R182). -/
def Obligations.ObserversKept : Prop :=
  ∀ s t : State, step s = .next t →
    (s.IncidentsSound → t.IncidentsSound) ∧ (s.BoundariesSound → t.BoundariesSound)
      ∧ (s.PortSound → t.PortSound)

/-! ## Rules over all commands -/

/-- Only TIME_COUNT_ADVANCE moves the time count, by one and from 2^32 − 1 to 0, and nothing but a reset
touches it otherwise or touches the reset-cause record (R2, R190). -/
def Obligations.TimeAdvancesAlone : Prop :=
  (∀ s : State, s.phase = .running → exec .timeCountAdvance s = .next { s with time := s.time + 1 })
    ∧ ∀ (c : Instr) (s t : State), exec c s = .next t → isReset c = false →
        t.cause = s.cause ∧ (c ≠ .timeCountAdvance → t.time = s.time)

/-- No request is forwarded while the quiesce state is not OPEN or the memory link is not UP: a slot comes to
be IN_FLIGHT, and a request to stand on the channel, only at FORWARDING, with the link UP, the quiesce state
OPEN, a credit available and the channel idle. A link-down withdraws the request on the channel, and a QUIESCE
leaves it there (R105, R106, R111). -/
def Obligations.ForwardingOnlyWhenOpen : Prop :=
  (∀ (c : Instr) (s t : State) (k : SlotId), exec c s = .next t →
      (t.transit.slots[k].state.isInFlight = true ∧ s.transit.slots[k].state.isInFlight = false)
        ∨ (t.arbiter.channel.isSome = true ∧ t.arbiter.channel ≠ s.arbiter.channel) →
      c = .forwarding ∧ s.arbiter.quiesce = .opened ∧ s.mem.link = .up ∧ 1 ≤ s.mem.available
        ∧ s.arbiter.channel = none)
    ∧ (∀ s t : State, s.phase = .running → s.mem.link ≠ .down → exec .memoryLinkDown s = .next t →
        t.arbiter.channel = none)
    ∧ ∀ (s t : State) (b : Byte), exec (.quiesce b) s = .next t → t.arbiter.channel = s.arbiter.channel

/-- A slot's epoch changes only where a reset clears it or a forwarding allocates the slot, which was FREE,
and then by one modulo 8 (R119, R120). -/
def Obligations.EpochsMoveAtAllocation : Prop :=
  ∀ (c : Instr) (s t : State) (k : SlotId), exec c s = .next t → isReset c = false →
    t.transit.slots[k].epoch = s.transit.slots[k].epoch
      ∨ (c = .forwarding ∧ s.transit.slots[k].state = .free
          ∧ t.transit.slots[k].epoch = s.transit.slots[k].epoch + 1
          ∧ t.transit.slots[k].state.isInFlight = true)

/-- While the snapshot bank is LOCKED its contents do not change: no command but a reset changes anything of
it but its state (R164). -/
def Obligations.LockedBankKept : Prop :=
  ∀ (c : Instr) (s t : State), exec c s = .next t → isReset c = false →
    s.stats.bank.state = .locked →
    t.stats.bank = s.stats.bank ∨ t.stats.bank = { s.stats.bank with state := .empty }

/-- No live counter, bin or maximum decreases except where a snapshot or a clear zeroes the live records
together and starts the interval anew, or at a reset (R161). That UNKNOWN_COMMAND_CODE may stand for such a
command is the model's deduction (log entry 14). -/
def Obligations.CountersNeverDecrease : Prop :=
  ∀ (c : Instr) (s t : State), exec c s = .next t → isReset c = false →
    ((∀ (i : ClassId) (k : ClassCounter),
          (s.stats.live[i].get k).toNat ≤ (t.stats.live[i].get k).toNat)
        ∧ (∀ i : ClassId, s.stats.live[i].maxHold.toNat ≤ t.stats.live[i].maxHold.toNat
            ∧ s.stats.live[i].maxMemory.toNat ≤ t.stats.live[i].maxMemory.toNat)
        ∧ ∀ k : GlobalCounter, (s.stats.globals.get k).toNat ≤ (t.stats.globals.get k).toNat)
      ∨ ((∀ i : ClassId, t.stats.live[i] = ClassStats.zero) ∧ t.stats.globals = GlobalStats.zero
          ∧ t.stats.intervalStart = s.time
          ∧ ((∃ b : Byte, c = .snapshot b ∨ c = .statsClear b ∨ c = .windowWrite b)
              ∨ c = .autoSnapshotExpiry ∨ ∃ code b : Byte, c = .unknownCommandCode code b))

/-- The class map changes only by a write of the shadow bank or of the default class, by MAP_SWAP, by DEFAULTS
and by a reset (R74); a class's active settings change only at its period boundary, at CLASS_APPLY, at
DEFAULTS and at a reset (R77); a window byte or a command register write may carry each of the writes and
commands. The round-robin pointers move only at a choice and at a reset (R108). That UNKNOWN_COMMAND_CODE may
stand for a command is the model's deduction (log entry 14). -/
def Obligations.ConfigurationKeptOtherwise : Prop :=
  ∀ (c : Instr) (s t : State), exec c s = .next t →
    (t.map ≠ s.map →
        isReset c = true ∨ (∃ (i : MapIndex) (m : MatchEntry), c = .shadowEntryWrite i m)
          ∨ (∃ b : Byte, c = .defaultClassWrite b ∨ c = .mapSwap b ∨ c = .defaults b
              ∨ c = .windowWrite b)
          ∨ ∃ code b : Byte, c = .unknownCommandCode code b)
      ∧ (∀ n : ClassId, t.budget[n].active ≠ s.budget[n].active →
        isReset c = true ∨ c = .periodBoundary n
          ∨ (∃ b : Byte, c = .classApply b ∨ c = .defaults b ∨ c = .windowWrite b)
          ∨ ∃ code b : Byte, c = .unknownCommandCode code b)
      ∧ (t.arbiter.pointers ≠ s.arbiter.pointers → isReset c = true ∨ c = .forwarding)

/-- Overlapping requests are forwarded in their order of acceptance: an entry that FORWARDING takes out of the
pool overlaps no QUEUED entry placed before it (R53). And ordering hazards alone cannot hold the pool still:
the oldest QUEUED entry is the head of its class with an empty wait list, so while any entry is QUEUED some
class head is neither IDLE nor in ORDER_WAIT (R48). -/
def Obligations.HazardLaws : Prop :=
  (∀ (s t : State) (order : List EntryId) (a b : EntryId) (ra rb : HoldRecord),
      s.PlacedInOrder order → exec .forwarding s = .next t →
      s.pool.entries[a] = .queued ra → s.pool.entries[b] = .queued rb → List.Sublist [a, b] order →
      rb.overlaps ra = true → t.pool.entries[b].isQueued = true)
    ∧ ∀ (s : State) (e : EntryId) (order : List EntryId), s.PlacedInOrder (e :: order) →
        ∃ (c : ClassId) (r : HoldRecord), s.pool.entries[e] = .queued r ∧ r.cls = c
          ∧ s.head? c = some e ∧ r.waitList = [] ∧ s.headCondition c ≠ .idle
          ∧ s.headCondition c ≠ .orderWait

/-- A quiesce completes exactly with the last slot in flight: an event after which QUIESCING would have no
slot IN_FLIGHT makes the state QUIESCED, the command status DONE with everything else kept, and sets the alert
flag QUIESCE, at the same event (R113). -/
def Obligations.QuiesceCompletesWithLastFlight : Prop :=
  ∀ (c : Instr) (s t : State), s.QuiesceSound → s.arbiter.quiesce = .quiescing →
    exec c s = .next t → isReset c = false →
    (t.countSlots SlotState.isInFlight = 0 →
        t.arbiter.quiesce = .quiesced ∧ t.alerts.quiesce = true
          ∧ t.port.status = { s.port.status with state := .done })
      ∧ (t.arbiter.quiesce = .quiesced → t.countSlots SlotState.isInFlight = 0)

/-- An event that finds nothing to act on leaves the state as it was, which is the model's reading of the
events the manual rules out or lets wait outside (log entry 2): a link-up of a link that is up and a link-down
of one that is down, a credit message in DOWN (R99), an offer the intake does not take (R7), a retry with no
request STALLED (R69), a leaving with nothing on offer (R144, R148), bytes outside their transfer (R178 to
R181), and the end of a reset that is not in effect (R189). -/
def Obligations.NothingToActOn : Prop :=
  ∀ s : State, s.phase = .running →
    (s.ret.link = .up → exec .fabricLinkUp s = .next s)
      ∧ (s.ret.link = .down → exec .fabricLinkDown s = .next s)
      ∧ (s.mem.link ≠ .down → exec .memoryLinkUp s = .next s)
      ∧ (s.mem.link = .down → exec .memoryLinkDown s = .next s
          ∧ ∀ m : BitVec 6, exec (.creditGrant m) s = .next s ∧ exec (.creditReturn m) s = .next s)
      ∧ (s.intake.register ≠ .empty ∨ s.ret.link = .down →
          ∀ req : FabricRequest, exec (.fabricRequestArrival req) s = .next s)
      ∧ ((∀ q : StalledRequest, s.intake.register ≠ .stalled q) → exec .placementRetry s = .next s)
      ∧ (s.ret.channel ≠ .real ∨ s.ret.register.isMatched = false →
          exec .realResponseLeaves s = .next s)
      ∧ (s.ret.channel ≠ .answer ∨ s.ret.answers = [] → exec .answerLeaves s = .next s)
      ∧ (∀ high low : Byte, s.port.bus ≠ .awaitOffset → exec (.offsetWrite high low) s = .next s)
      ∧ (∀ b : Byte, s.port.bus ≠ .writing → exec (.windowWrite b) s = .next s)
      ∧ (s.port.bus ≠ .reading → exec .fieldLatch s = .next s)
      ∧ ∀ straps : BitVec 2, exec (.resetEnd straps) s = .next s

/-! ## Links and credits -/

/-- FABRIC_LINK_UP and MEMORY_LINK_UP from DOWN set the link and raise their incident, and nothing else (R100,
R140). CREDIT_GRANT n opens the link from WAIT_GRANT with n credits granted and available, and is credit
excess in UP; CREDIT_RETURN k adds k in UP, clamped to granted with the excess reported, and is credit excess
in WAIT_GRANT (R101, R102). The messages carry the count minus one (R198). That the incident stands in the
queue within the event that raises it, where R171 makes its recording the queue's own event, is the model's
choice (log entry 5). -/
def Obligations.LinkUpsAndCredits : Prop :=
  ∀ (s : State) (m : BitVec 6) (n : Nat), s.phase = .running → n = m.toNat + 1 →
    (s.ret.link = .down → exec .fabricLinkUp s = .next
        ({ s with ret.link := .up }.raise ⟨.fabricLinkUp, none, none, none, none, 0⟩))
      ∧ (s.mem.link = .down → exec .memoryLinkUp s = .next
          ({ s with mem.link := .waitGrant }.raise ⟨.memoryLinkUp, none, none, none, none, 0⟩))
      ∧ (s.mem.link = .waitGrant →
          exec (.creditGrant m) s = .next { s with mem := ⟨.up, n, n⟩ }
            ∧ exec (.creditReturn m) s = .next ((s.countGlobal .creditExcess 1).raise
                ⟨.creditExcess, none, none, none, none, BitVec.ofNat 32 (3 + 256 * n)⟩))
      ∧ (s.mem.link = .up →
          exec (.creditGrant m) s = .next ((s.countGlobal .creditExcess 1).raise
            ⟨.creditExcess, none, none, none, none, BitVec.ofNat 32 (1 + 256 * n)⟩)
          ∧ (s.mem.available + n ≤ s.mem.granted →
              exec (.creditReturn m) s = .next { s with mem.available := s.mem.available + n })
          ∧ (s.mem.granted < s.mem.available + n →
              exec (.creditReturn m) s = .next
                (({ s with mem.available := s.mem.granted }.countGlobal .creditExcess 1).raise
                  ⟨.creditExcess, none, none, none, none, BitVec.ofNat 32 (2 + 256 * n)⟩)))

/-- FABRIC_LINK_DOWN dissolves every obligation and debt: the intake and the pool are emptied, slots in flight
or owing become EXPIRED owing nothing, LOST slots become FREE, the offer is withdrawn, the answer list is
emptied and a matched response discarded; the freed entries and a stall's duration are counted, a quiesce
completes, the alert flag SATURATION is set where one of the two counts saturates, and everything else stays
(R38, R73, R113, R137, R153, R157). That FABRIC_LINK_DOWN is recorded within the event is the model's choice
(log entry 5). -/
def Obligations.FabricLinkDownDissolves : Prop :=
  ∀ s : State, s.phase = .running → s.ret.link = .up →
    ∃ t : State, exec .fabricLinkDown s = .next t
      ∧ t.ret = { link := .down, channel := .idle, answers := [], turn := s.ret.turn
                  register := (match s.ret.register with
                    | .matched _ => .empty
                    | .empty => .empty
                    | .unmatched resp => .unmatched resp) }
      ∧ (∀ e : EntryId, t.pool.entries[e] = .free) ∧ (∀ c : ClassId, t.pool.queues[c] = [])
      ∧ (∀ k : SlotId, t.transit.slots[k].epoch = s.transit.slots[k].epoch
          ∧ t.transit.slots[k].state = (match s.transit.slots[k].state with
            | .free => .free
            | .inFlight r _ _ => .expired r false
            | .expired r _ => .expired r false
            | .lost _ => .free))
      ∧ (∀ c : ClassId, t.stats.live[c] = (match s.intake.register with
          | .stalled q =>
            if q.cls = c then s.stats.live[c].bump .stallTime (s.elapsed q.stallStart)
            else s.stats.live[c]
          | .empty => s.stats.live[c]
          | .rejecting _ _ _ => s.stats.live[c]))
      ∧ t = { s with
          ret := t.ret
          pool := t.pool
          transit.slots := t.transit.slots
          intake.register := .empty
          stats.live := t.stats.live
          stats.globals := s.stats.globals.bump .lostOnFabricDown s.poolOccupancy
          alerts.saturation := s.alerts.saturation
            || (match s.intake.register with
              | .stalled q => saturates s.stats.live[q.cls].stallTime (s.time - q.stallStart).toNat
              | .empty => false
              | .rejecting _ _ _ => false)
            || saturates s.stats.globals.lostOnFabricDown s.poolOccupancy
          incidents := (s.raise ⟨.fabricLinkDown, none, none, none, none,
            BitVec.ofNat 32 s.ret.answers.length⟩).incidents
          arbiter.quiesce := s.quiesceAfter t
          port.status.state := if s.arbiter.quiesce = .quiescing then .done else s.port.status.state
          alerts.quiesce := s.alerts.quiesce || decide (s.arbiter.quiesce = .quiescing) }

/-- MEMORY_LINK_DOWN zeroes the credits, withdraws the request on the channel, makes the slots in flight and
those owing TIMEOUT LOST, frees the EXPIRED ones that owe nothing, puts the slots that were in flight on the
answer list in their forwarding order, counts the losses, completes a quiesce, and leaves everything else as
it was; an idle response channel makes its choice among what now waits, and an open offer stands (R104, R113,
R136, R141, R150, R157). That MEMORY_LINK_DOWN is recorded and the choice made within the event is the model's
reading (log entry 5), and so is the list that holds the forwarding order (log entry 15). -/
def Obligations.MemoryLinkDownLosesFlights : Prop :=
  ∀ (s : State) (lost : Nat), s.phase = .running → s.mem.link ≠ .down →
    lost = s.countSlots (fun k => match k with
      | .inFlight _ _ _ => true
      | .expired _ owes => owes
      | .free => false
      | .lost _ => false) →
    ∃ t : State, exec .memoryLinkDown s = .next t
      ∧ (∀ k : SlotId, t.transit.slots[k].epoch = s.transit.slots[k].epoch
          ∧ t.transit.slots[k].state = (match s.transit.slots[k].state with
            | .free => .free
            | .inFlight r _ _ => .lost r
            | .expired r owes => if owes then .lost r else .free
            | .lost r => .lost r))
      ∧ t = { s with
          mem := ⟨.down, 0, 0⟩
          arbiter.channel := none
          transit.slots := t.transit.slots
          ret.answers := s.ret.answers
            ++ (s.transit.order.filter (fun k => s.transit.slots[k].state.isInFlight)).map Owner.slot
          ret.channel := t.channelAfter s.ret.channel
          stats.globals := s.stats.globals.bump .lostOnMemoryDown lost
          alerts.saturation := s.alerts.saturation || saturates s.stats.globals.lostOnMemoryDown lost
          incidents := (s.raise ⟨.memoryLinkDown, none, none, none, none,
            if s.mem.link = .up then 2 else 1⟩).incidents
          arbiter.quiesce := s.quiesceAfter t
          port.status.state := if s.arbiter.quiesce = .quiescing then .done else s.port.status.state
          alerts.quiesce := s.alerts.quiesce || decide (s.arbiter.quiesce = .quiescing) }

/-! ## The intake -/

/-- The malformation reason is the first row of R6's table whose condition holds; a request for which none
holds is well-formed (R6). -/
def Obligations.MalformationReason : Prop :=
  ∀ (req : FabricRequest) (i : Nat),
    (malformation req = some i ↔ requestFails req i ∧ ∀ j : Nat, j < i → ¬ requestFails req j)
      ∧ (malformation req = none ↔ ∀ j : Nat, ¬ requestFails req j)

/-- A request's class is that of the lowest-numbered entry of the active bank that matches it, or the default
class where none matches (R65). -/
def Obligations.LowestMatchClassifies : Prop :=
  ∀ (s : State) (source : BitVec 6) (page : BitVec 28) (kind : Kind),
    (∀ i : MapIndex, entryCovers s.map.activeBank[i] source page kind →
        (∀ j : MapIndex, j < i → ¬ entryCovers s.map.activeBank[j] source page kind) →
        s.classify source page kind = s.map.activeBank[i].cls)
      ∧ ((∀ i : MapIndex, ¬ entryCovers s.map.activeBank[i] source page kind) →
          s.classify source page kind = s.map.defaultClass)

/-- The four conditions of the placement test (R27). -/
def Obligations.PlacementTestConditions : Prop :=
  ∀ (s : State) (c : ClassId) (kind : Kind) (lines : Nat),
    s.placementTest c kind lines = true ↔
      s.occupancy c < s.budget[c].active.limit.toNat
        ∧ (∃ e : EntryId, s.pool.entries[e] = .free)
        ∧ (s.occupancy c < s.budget[c].active.reservation.toNat
            ∨ ((List.finRange 16).map (fun k : ClassId =>
                if s.occupancy k < s.budget[k].active.reservation.toNat then
                  s.budget[k].active.reservation.toNat - s.occupancy k
                else 0)).sum + s.poolOccupancy < 192)
        ∧ (kind = .read ∨ s.usedLines + lines ≤ 1024 ∨ lines = 0)

/-- A malformed request, and a well-formed one whose source and tag have an open obligation, makes the EMPTY
intake REJECTING, owing MALFORMED or TAG_REUSE: its reference joins the answer list, the global counter rises,
and the incident carries source, tag and address, with the malformation reason, or with the kind of the
obligation's owner and its slot where the owner is one; an idle response channel makes its choice, an open
offer stands, and nothing else changes (R58, R59, R60, R63, R141, R150, R157). That the incident is recorded
and the choice made within the arrival is the model's reading (log entry 5). -/
def Obligations.RequestsRefused : Prop :=
  ∀ (s : State) (req : FabricRequest), s.phase = .running → s.intake.register = .empty →
    s.ret.link = .up →
    (∀ reason : Nat, malformation req = some reason →
        ∃ t : State, exec (.fabricRequestArrival req) s = .next t
          ∧ t = { s with
              intake.register := .rejecting req.source req.tag .malformed
              ret.answers := s.ret.answers ++ [.intake]
              ret.channel := t.channelAfter s.ret.channel
              stats.globals := s.stats.globals.bump .malformed 1
              alerts.saturation := s.alerts.saturation || saturates s.stats.globals.malformed 1
              incidents := (s.raise ⟨.malformed, none, some (req.source, req.tag), none,
                some req.address, BitVec.ofNat 32 reason⟩).incidents })
      ∧ (malformation req = none → 0 < s.openObligations req.source req.tag →
        ∃ (t : State) (owner : TagOwner), exec (.fabricRequestArrival req) s = .next t
          ∧ (match owner with
              | .holdEntry => ∃ e : EntryId, s.pool.entries[e].hasPair req.source req.tag = true
              | .slot k => s.transit.slots[k].state.hasPair req.source req.tag = true
              | .responseReturn => s.ret.register.hasPair req.source req.tag = true)
          ∧ t = { s with
              intake.register := .rejecting req.source req.tag .tagReuse
              ret.answers := s.ret.answers ++ [.intake]
              ret.channel := t.channelAfter s.ret.channel
              stats.globals := s.stats.globals.bump .tagReuse 1
              alerts.saturation := s.alerts.saturation || saturates s.stats.globals.tagReuse 1
              incidents := (s.raise ⟨.tagReuse, none, some (req.source, req.tag),
                (match owner with
                  | .slot k => some k
                  | .holdEntry => none
                  | .responseReturn => none),
                some req.address,
                (match owner with
                  | .holdEntry => 1
                  | .slot _ => 2
                  | .responseReturn => 3)⟩).incidents })

/-- An accepted request whose first placement test passes takes the lowest-numbered FREE entry: it is QUEUED
at the tail of its class queue, arrived at the present time, and waits on exactly the QUEUED entries that
overlap it; a non-empty wait list is counted. One whose first test fails leaves the pool alone and makes the
intake STALLED from the present time (R20, R42, R47, R58, R68). Heads newly found in BUDGET_WAIT are counted
within the event (R97; log entry 5). -/
def Obligations.AcceptedRequestPlacedOrStalled : Prop :=
  ∀ (s : State) (req : FabricRequest) (kind : Kind) (c : ClassId), s.phase = .running →
    s.intake.register = .empty → s.ret.link = .up → malformation req = none →
    s.openObligations req.source req.tag = 0 → kindOfCode req.kindCode = some kind →
    c = s.classify req.source (startPage req.address) kind →
    (∀ e : EntryId, s.placementTest c kind req.data.length = true → s.IsLowestFree e →
        ∃ (t : State) (r : HoldRecord), exec (.fabricRequestArrival req) s = .next t
          ∧ t.pool.entries[e] = .queued r
          ∧ r = { source := req.source, tag := req.tag, cls := c, kind := kind, address := req.address
                  length := req.lengthField.toNat, arrival := s.time, data := req.data
                  waitList := r.waitList, waitedForBudget := r.waitedForBudget }
          ∧ (∀ a : EntryId, a ∈ r.waitList ↔
              ∃ ra : HoldRecord, s.pool.entries[a] = .queued ra ∧ r.overlaps ra = true)
          ∧ (∀ e' : EntryId, e' ≠ e →
              t.pool.entries[e'].unflagged = s.pool.entries[e'].unflagged)
          ∧ t.pool.queues[c] = s.pool.queues[c] ++ [e]
          ∧ (∀ c' : ClassId, c' ≠ c → t.pool.queues[c'] = s.pool.queues[c'])
          ∧ t.stats.live[c].orderWaits
              = satAdd s.stats.live[c].orderWaits (if r.waitList = [] then 0 else 1)
          ∧ s.CountsKept t (fun i k => k = .budgetWaits ∨ (i = c ∧ k = .orderWaits))
          ∧ s.MaximaKept t
          ∧ t = { s with
              pool := t.pool
              stats.live := t.stats.live
              alerts.saturation := t.alerts.saturation })
      ∧ (s.placementTest c kind req.data.length = false →
          exec (.fabricRequestArrival req) s = .next { s with
            intake.register := .stalled
              { source := req.source, tag := req.tag, cls := c, kind := kind
                address := req.address, length := req.lengthField.toNat, arrival := s.time
                data := req.data, stallStart := s.time, reported := false } })

/-- PLACEMENT_RETRY places a STALLED request with its original arrival time and class when the placement test
passes, ends the stall episode and adds its duration to the class's stall time; when the test fails nothing
changes (R20, R69, R72). Heads newly found in BUDGET_WAIT are counted within the event (R97; log entry 5). -/
def Obligations.StalledRequestRetried : Prop :=
  ∀ (s : State) (q : StalledRequest), s.phase = .running → s.intake.register = .stalled q →
    (∀ e : EntryId, s.placementTest q.cls q.kind q.data.length = true → s.IsLowestFree e →
        ∃ (t : State) (r : HoldRecord), exec .placementRetry s = .next t
          ∧ t.pool.entries[e] = .queued r
          ∧ r = { source := q.source, tag := q.tag, cls := q.cls, kind := q.kind
                  address := q.address, length := q.length, arrival := q.arrival, data := q.data
                  waitList := r.waitList, waitedForBudget := r.waitedForBudget }
          ∧ (∀ a : EntryId, a ∈ r.waitList ↔
              ∃ ra : HoldRecord, s.pool.entries[a] = .queued ra ∧ r.overlaps ra = true)
          ∧ (∀ e' : EntryId, e' ≠ e →
              t.pool.entries[e'].unflagged = s.pool.entries[e'].unflagged)
          ∧ t.pool.queues[q.cls] = s.pool.queues[q.cls] ++ [e]
          ∧ (∀ c' : ClassId, c' ≠ q.cls → t.pool.queues[c'] = s.pool.queues[c'])
          ∧ t.stats.live[q.cls].stallTime
              = satAdd s.stats.live[q.cls].stallTime (s.time - q.stallStart).toNat
          ∧ t.stats.live[q.cls].orderWaits
              = satAdd s.stats.live[q.cls].orderWaits (if r.waitList = [] then 0 else 1)
          ∧ s.CountsKept t (fun i k => k = .budgetWaits
              ∨ (i = q.cls ∧ (k = .orderWaits ∨ k = .stallTime)))
          ∧ s.MaximaKept t
          ∧ t = { s with
              intake.register := .empty
              pool := t.pool
              stats.live := t.stats.live
              alerts.saturation := t.alerts.saturation })
      ∧ (s.placementTest q.cls q.kind q.data.length = false → exec .placementRetry s = .next s)

/-- The stall report: when the limit is not 0, the episode unreported and the elapsed time has reached the
limit, INTAKE_STALL is raised with the elapsed time as detail and the flag is set; otherwise, and with no
request STALLED, nothing happens. A write of the limit replaces it and makes the same comparison at once
(R71). That a limit passed at an earlier microsecond is still acted on, and that the incident is recorded
within the event, are the model's choices (log entries 4, 5). -/
def Obligations.StallReportedOnce : Prop :=
  ∀ (s : State) (limit : BitVec 16), s.phase = .running →
    (∀ q : StalledRequest, s.intake.register = .stalled q →
        (limit ≠ 0 ∧ q.reported = false ∧ limit.toNat ≤ (s.time - q.stallStart).toNat →
            exec (.stallLimitWrite limit) s = .next
                ({ s with intake := ⟨.stalled { q with reported := true }, limit⟩ }.raise
                  ⟨.intakeStall, some q.cls, some (q.source, q.tag), none, some q.address,
                    s.time - q.stallStart⟩)
              ∧ (s.intake.stallLimit = limit → exec .intakeStall s = .next
                ({ s with intake := ⟨.stalled { q with reported := true }, limit⟩ }.raise
                  ⟨.intakeStall, some q.cls, some (q.source, q.tag), none, some q.address,
                    s.time - q.stallStart⟩)))
          ∧ (limit = 0 ∨ q.reported = true ∨ (s.time - q.stallStart).toNat < limit.toNat →
            exec (.stallLimitWrite limit) s = .next { s with intake.stallLimit := limit }
              ∧ (s.intake.stallLimit = limit → exec .intakeStall s = .next s)))
      ∧ ((∀ q : StalledRequest, s.intake.register ≠ .stalled q) →
        exec (.stallLimitWrite limit) s = .next { s with intake.stallLimit := limit }
          ∧ exec .intakeStall s = .next s)

/-! ## Budgets and forwarding -/

/-- PERIOD_BOUNDARY, once the elapsed time has reached the active period: a pending staged copy becomes
active, the account is clamped to the cap and raised by the budget at most to the cap, the timer restarts;
apart from heads newly found in BUDGET_WAIT nothing else changes. Before it is due nothing happens (R84, R85).
That a boundary taken later than the microsecond it fell due still replenishes and restarts the timer at the
present time is the model's choice (log entry 4), and so is the count of heads within the event (log entry 5).
-/
def Obligations.BoundaryReplenishes : Prop :=
  ∀ (s : State) (c : ClassId) (r : Settings) (cap : Int), s.phase = .running →
    r = (if s.budget[c].pending = true then s.budget[c].staged else s.budget[c].active) →
    cap = (r.budget.toNat : Int) + (r.burst.toNat : Int) →
    (s.budget[c].active.period.toNat ≤ (s.time - s.budget[c].lastBoundary).toNat →
        ∃ t : State, exec (.periodBoundary c) s = .next t
          ∧ t.budget[c] = { staged := s.budget[c].staged, active := r, pending := false
                            account := min (min s.budget[c].account cap + (r.budget.toNat : Int)) cap
                            lastBoundary := s.time }
          ∧ (∀ c' : ClassId, c' ≠ c → t.budget[c'] = s.budget[c'])
          ∧ (∀ e : EntryId, t.pool.entries[e].unflagged = s.pool.entries[e].unflagged)
          ∧ s.CountsKept t (fun _ k => k = .budgetWaits) ∧ s.MaximaKept t
          ∧ t = { s with
              budget := t.budget
              pool.entries := t.pool.entries
              stats.live := t.stats.live
              alerts.saturation := t.alerts.saturation })
      ∧ ((s.time - s.budget[c].lastBoundary).toNat < s.budget[c].active.period.toNat →
          exec (.periodBoundary c) s = .next s)

/-- The head condition is the first that applies of: IDLE with the queue empty, ORDER_WAIT with a non-empty
wait list, GATED in GATE mode, BUDGET_WAIT in METER mode with the account at 0 or below, RESOURCE_WAIT while
one of the four global conditions fails, and READY (R95, R106). A head is eligible exactly in READY: its queue
is not empty, its wait list is, its mode is not GATE, a METER account is above 0 and the four global
conditions hold. Among eligible classes the highest priority wins, and at that priority the first from the
level's pointer, wrapping from 15 to 0; with none eligible there is no choice (R107). That a mode code other
than METER and GATE reads as PASS is the model's choice for states no run reaches (log entry 13). -/
def Obligations.ArbiterChoice : Prop :=
  ∀ (s : State) (c : ClassId),
    (s.pool.queues[c] = [] → s.headCondition c = .idle)
      ∧ (∀ (e : EntryId) (rest : List EntryId) (r : HoldRecord), s.pool.queues[c] = e :: rest →
          s.pool.entries[e] = .queued r →
          (r.waitList ≠ [] → s.headCondition c = .orderWait)
            ∧ (r.waitList = [] → s.budget[c].active.mode = 2 → s.headCondition c = .gated)
            ∧ (r.waitList = [] → s.budget[c].active.mode = 1 → s.budget[c].account ≤ 0 →
                s.headCondition c = .budgetWait)
            ∧ (r.waitList = [] → s.budget[c].active.mode ≠ 2 →
                (s.budget[c].active.mode = 1 → 0 < s.budget[c].account) →
                ((s.arbiter.quiesce ≠ .opened ∨ s.mem.link ≠ .up ∨ s.mem.available = 0
                      ∨ ∀ k : SlotId, s.transit.slots[k].state ≠ .free) →
                    s.headCondition c = .resourceWait)
                  ∧ (s.arbiter.quiesce = .opened → s.mem.link = .up → 1 ≤ s.mem.available →
                    (∃ k : SlotId, s.transit.slots[k].state = .free) → s.headCondition c = .ready)))
      ∧ (s.eligible c = true ↔
        ∃ e : EntryId, s.pool.queues[c].head? = some e
          ∧ (∀ r : HoldRecord, s.pool.entries[e] = .queued r → r.waitList = [])
          ∧ s.budget[c].active.mode ≠ 2
          ∧ (s.budget[c].active.mode = 1 → 0 < s.budget[c].account)
          ∧ s.arbiter.quiesce = .opened ∧ s.mem.link = .up ∧ 1 ≤ s.mem.available
          ∧ ∃ k : SlotId, s.transit.slots[k].state = .free)
      ∧ (s.chooseClass = some c → s.eligible c = true
          ∧ ∀ d : ClassId, s.eligible d = true →
              (s.level d < s.level c)
                ∨ (s.level d = s.level c
                    ∧ (c - s.arbiter.pointers[s.level c]).val
                        ≤ (d - s.arbiter.pointers[s.level c]).val))
      ∧ (s.chooseClass = none ↔ ∀ d : ClassId, s.eligible d = false)

/-- FORWARDING, with the channel idle and class `c` chosen, moves its head into the lowest-numbered FREE slot
as one event: the epoch advances, the record and the captured deadline and guard are written, a credit is
spent, a METER account is charged, the entry leaves its queue and every wait list and becomes FREE, the
counters and the maximum hold time are offered, the level's pointer moves past the class, and the memory
request stands on the channel under its downstream tag. With no class chosen, or while the channel is sending,
nothing happens (R33, R87, R105, R107, R109, R120, R121; log entry 2). Heads newly found in BUDGET_WAIT are
counted within the event (R97; log entry 5). That the slot moves to the end of a list that holds the order of
the allocations is the model's deduction (log entry 15). -/
def Obligations.ForwardingIsOneEvent : Prop :=
  ∀ s : State, s.phase = .running →
    (∀ (c : ClassId) (e : EntryId) (r : HoldRecord) (k : SlotId) (m : BitVec 3),
        s.arbiter.channel = none → s.chooseClass = some c → s.pool.queues[c].head? = some e →
        s.pool.entries[e] = .queued r → s.IsLowestFreeSlot k →
        m = s.transit.slots[k].epoch + 1 →
        ∃ t : State, exec .forwarding s = .next t
          ∧ t.transit.slots[k] =
              { epoch := m
                state := .inFlight
                  { source := r.source, tag := r.tag, cls := r.cls, kind := r.kind
                    address := r.address, length := r.length, arrival := r.arrival
                    forwardTime := s.time, deadline := s.budget[c].active.deadline
                    guard := s.budget[c].active.guard }
                  (if s.budget[c].active.deadline = 0 then none
                    else some (s.time + s.budget[c].active.deadline.setWidth 32))
                  false }
          ∧ (∀ k' : SlotId, k' ≠ k → t.transit.slots[k'] = s.transit.slots[k'])
          ∧ t.transit.order = s.transit.order.filter (fun j => decide (j ≠ k)) ++ [k]
          ∧ t.budget[c] = { s.budget[c] with
              account := if s.budget[c].active.mode = 1 then s.budget[c].account - (r.length : Int)
                else s.budget[c].account }
          ∧ (∀ c' : ClassId, c' ≠ c → t.budget[c'] = s.budget[c'])
          ∧ t.pool.entries[e] = .free
          ∧ (∀ e' : EntryId, e' ≠ e →
              t.pool.entries[e'].unflagged = (s.pool.entries[e'].dropMember e).unflagged)
          ∧ t.pool.queues[c] = s.pool.queues[c].tail
          ∧ (∀ c' : ClassId, c' ≠ c → t.pool.queues[c'] = s.pool.queues[c'])
          ∧ t.stats.live[c].forwardedRequests = satAdd s.stats.live[c].forwardedRequests 1
          ∧ t.stats.live[c].forwardedLines = satAdd s.stats.live[c].forwardedLines r.length
          ∧ t.stats.live[c].maxHold.toNat
              = max s.stats.live[c].maxHold.toNat (s.time - r.arrival).toNat
          ∧ s.CountsKept t (fun i k => k = .budgetWaits
              ∨ (i = c ∧ (k = .forwardedRequests ∨ k = .forwardedLines)))
          ∧ (∀ i : ClassId, t.stats.live[i].maxMemory = s.stats.live[i].maxMemory
              ∧ (i ≠ c → t.stats.live[i].maxHold = s.stats.live[i].maxHold))
          ∧ (∀ l : Fin 4, t.arbiter.pointers[l]
              = if l = s.level c then c + 1 else s.arbiter.pointers[l])
          ∧ t = { s with
              transit := t.transit
              budget := t.budget
              pool := t.pool
              mem.available := s.mem.available - 1
              arbiter.pointers := t.arbiter.pointers
              arbiter.channel := some
                { source := r.source, kind := r.kind, address := r.address, length := r.length
                  tag := BitVec.ofNat 10 (8 * k.val + m.toNat), data := r.data }
              stats.live := t.stats.live
              alerts.saturation := t.alerts.saturation })
      ∧ (s.chooseClass = none ∨ s.arbiter.channel ≠ none → exec .forwarding s = .next s)

/-- SEND_COMPLETION makes the channel idle (R105); MEMORY_RESPONSE_TAKEN puts the response into an EMPTY
return register while the memory link is UP and is not taken otherwise (R14, R142); QUIESCE_COMPLETION
completes a quiesce in QUIESCING with no slot in flight and finds nothing to act on in any other state (R113,
R115). What an offer that is not taken, a send completion with the channel idle, and a completion outside
QUIESCING do is the model's reading (log entry 2). -/
def Obligations.SendTakeAndComplete : Prop :=
  ∀ (s : State) (resp : MemResponse), s.phase = .running →
    exec .sendCompletion s = .next { s with arbiter.channel := none }
      ∧ (s.ret.register = .empty ∧ s.mem.link = .up →
          exec (.memoryResponseTaken resp) s = .next { s with ret.register := .unmatched resp })
      ∧ (s.ret.register ≠ .empty ∨ s.mem.link ≠ .up →
          exec (.memoryResponseTaken resp) s = .next s)
      ∧ (s.arbiter.quiesce = .quiescing ∧ s.countSlots SlotState.isInFlight = 0 →
          exec .quiesceCompletion s = .next { s with
            arbiter.quiesce := .quiesced
            port.status.state := .done
            alerts.quiesce := true })
      ∧ (s.arbiter.quiesce ≠ .quiescing ∨ s.countSlots SlotState.isInFlight ≠ 0 →
          exec .quiesceCompletion s = .next s)

/-! ## The transit table -/

/-- DEADLINE_EXPIRY of a slot in flight whose deadline time is present, reached and not yet acted on counts a
timeout; under WATCH it sets the overdue flag and raises DEADLINE_WATCHED, under ANSWER it makes the slot
EXPIRED owing TIMEOUT on the answer list, raises DEADLINE_ANSWERED, may complete a quiesce, and lets an idle
response channel make its choice, where an open offer stands. A slot that is not in flight, has no deadline
time, is overdue or is not yet due is not reached (R122, R123, R124, R141, R150, R157). The model's choices: a
deadline passed at an earlier microsecond is still acted on (log entry 4), the incident is recorded within the
expiry (log entry 5), and a guard code other than ANSWER reads as WATCH (log entry 13). -/
def Obligations.ExpiryFollowsTheGuard : Prop :=
  ∀ (s : State) (k : SlotId), s.phase = .running →
    (∀ (r : SlotRecord) (d : Time), s.transit.slots[k].state = .inFlight r (some d) false →
        r.deadline.toNat ≤ (s.time - r.forwardTime).toNat →
        ∃ t : State, exec (.deadlineExpiry k) s = .next t
          ∧ t.transit.slots[k].epoch = s.transit.slots[k].epoch
          ∧ (∀ k' : SlotId, k' ≠ k → t.transit.slots[k'] = s.transit.slots[k'])
          ∧ (r.guard ≠ 1 → t.transit.slots[k].state = .inFlight r (some d) true
              ∧ t = { s with
                  transit.slots := t.transit.slots
                  stats.live := (s.countClass r.cls .timeouts 1).stats.live
                  alerts.saturation := (s.countClass r.cls .timeouts 1).alerts.saturation
                  incidents := (s.raise ⟨.deadlineWatched, some r.cls, some (r.source, r.tag), some k,
                    some r.address, r.deadline.setWidth 32⟩).incidents })
          ∧ (r.guard = 1 → t.transit.slots[k].state = .expired r true
              ∧ t.arbiter.quiesce = s.quiesceAfter t
              ∧ (s.arbiter.quiesce ≠ .quiescing → t.port = s.port ∧ t.alerts.quiesce = s.alerts.quiesce)
              ∧ t = { s with
                  transit.slots := t.transit.slots
                  ret.answers := s.ret.answers ++ [.slot k]
                  ret.channel := t.channelAfter s.ret.channel
                  stats.live := (s.countClass r.cls .timeouts 1).stats.live
                  alerts.saturation := (s.countClass r.cls .timeouts 1).alerts.saturation
                  incidents := (s.raise ⟨.deadlineAnswered, some r.cls, some (r.source, r.tag), some k,
                    some r.address, r.deadline.setWidth 32⟩).incidents
                  arbiter.quiesce := t.arbiter.quiesce
                  port.status.state := t.port.status.state
                  alerts.quiesce := t.alerts.quiesce }))
      ∧ ((∀ (r : SlotRecord) (d : Time), s.transit.slots[k].state = .inFlight r (some d) false →
            (s.time - r.forwardTime).toNat < r.deadline.toNat) →
          exec (.deadlineExpiry k) s = .next s)

/-- MATCH of a response whose tag names a slot in flight with the equal epoch is a completion: the response,
judged against the slot's kind and length, is kept with the slot's source, tag, class and arrival time; the
memory time is offered and the completion counted in time or overdue; the slot is FREE with its epoch kept, a
quiesce may complete, and an idle response channel makes its choice, where an open offer stands (R14, R126,
R127, R141, R143, R150, R157). The lines an OKAY must carry are the length for a READ, 1 for an ATOMIC and 0
for a WRITE. That the channel's choice is made within the match is the model's reading (log entry 5). -/
def Obligations.MatchCompletes : Prop :=
  ∀ (s : State) (resp : MemResponse) (k : SlotId) (r : SlotRecord) (d : Option Time) (overdue : Bool),
    s.phase = .running → s.ret.register = .unmatched resp →
    resp.tag.toNat = 8 * k.val + s.transit.slots[k].epoch.toNat →
    s.transit.slots[k].state = .inFlight r d overdue →
    ∃ (t : State) (x : RealResponse), exec .matchResponse s = .next t
      ∧ t.ret.register = .matched x
      ∧ x.source = r.source ∧ x.tag = r.tag ∧ x.cls = r.cls ∧ x.arrival = r.arrival
      ∧ x.origin = .completion
      ∧ (if resp.status = .okay ∧ resp.data.length = (match r.kind with
            | .read => r.length
            | .atomic => 1
            | .write => 0) then
          x.status = .okay ∧ x.data = resp.data
        else x.status = .memfault ∧ x.data = [])
      ∧ t.transit.slots[k] = { epoch := s.transit.slots[k].epoch, state := .free }
      ∧ (∀ k' : SlotId, k' ≠ k → t.transit.slots[k'] = s.transit.slots[k'])
      ∧ t.stats.live[r.cls].maxMemory.toNat
          = max s.stats.live[r.cls].maxMemory.toNat (s.time - r.forwardTime).toNat
      ∧ t.stats.live[r.cls].completedInTime
          = satAdd s.stats.live[r.cls].completedInTime (if overdue then 0 else 1)
      ∧ t.stats.live[r.cls].overdueCompleted
          = satAdd s.stats.live[r.cls].overdueCompleted (if overdue then 1 else 0)
      ∧ s.CountsKept t (fun i k => i = r.cls ∧ (k = .completedInTime ∨ k = .overdueCompleted))
      ∧ (∀ i : ClassId, t.stats.live[i].maxHold = s.stats.live[i].maxHold
          ∧ (i ≠ r.cls → t.stats.live[i].maxMemory = s.stats.live[i].maxMemory))
      ∧ t.arbiter.quiesce = s.quiesceAfter t
      ∧ (s.arbiter.quiesce ≠ .quiescing → t.port = s.port ∧ t.alerts.quiesce = s.alerts.quiesce)
      ∧ t = { s with
          transit.slots := t.transit.slots
          ret.register := t.ret.register
          ret.channel := t.channelAfter s.ret.channel
          stats.live := t.stats.live
          alerts.saturation := (s.countClass r.cls
            (if overdue then .overdueCompleted else .completedInTime) 1).alerts.saturation
          arbiter.quiesce := t.arbiter.quiesce
          port.status.state := t.port.status.state
          alerts.quiesce := t.alerts.quiesce }

/-- MATCH of a response whose tag names a slot that owes TIMEOUT or LOST, with the equal epoch, supersedes the
answer: the slot's reference leaves the answer list wherever it stands, the response takes its place, it is
counted as late delivered and LATE_RESPONSE says delivered; no completion is counted. The offer of the slot's
own answer is withdrawn, any other open offer stands, and an idle channel makes its choice (R14, R128, R141,
R143, R149, R150, R157). That LATE_RESPONSE is recorded and the choice made within the match is the model's
reading (log entry 5). -/
def Obligations.MatchSupersedes : Prop :=
  ∀ (s : State) (resp : MemResponse) (k : SlotId) (r : SlotRecord), s.phase = .running →
    s.ret.register = .unmatched resp →
    resp.tag.toNat = 8 * k.val + s.transit.slots[k].epoch.toNat →
    s.transit.slots[k].state = .expired r true ∨ s.transit.slots[k].state = .lost r →
    ∃ (t : State) (x : RealResponse), exec .matchResponse s = .next t
      ∧ t.ret.register = .matched x
      ∧ x.source = r.source ∧ x.tag = r.tag ∧ x.cls = r.cls ∧ x.arrival = r.arrival
      ∧ x.origin = .supersede
      ∧ (if resp.status = .okay ∧ resp.data.length = (match r.kind with
            | .read => r.length
            | .atomic => 1
            | .write => 0) then
          x.status = .okay ∧ x.data = resp.data
        else x.status = .memfault ∧ x.data = [])
      ∧ t.transit.slots[k] = { epoch := s.transit.slots[k].epoch, state := .free }
      ∧ (∀ k' : SlotId, k' ≠ k → t.transit.slots[k'] = s.transit.slots[k'])
      ∧ t.ret.answers = s.ret.answers.filter (fun o => decide (o ≠ .slot k))
      ∧ (s.ret.link = .up → s.ret.channel = .answer → s.ret.answers.head? = some (.slot k) →
          t.ret.channel = (if t.ret.answers = [] ∨ s.ret.turn = .real then .real else .answer))
      ∧ t = { s with
          transit.slots := t.transit.slots
          ret.register := t.ret.register
          ret.answers := t.ret.answers
          ret.channel := t.channelAfter
            (if s.ret.channel = .answer ∧ s.ret.answers.head? = some (.slot k) then .idle
              else s.ret.channel)
          stats.live := (s.countClass r.cls .lateDelivered 1).stats.live
          alerts.saturation := (s.countClass r.cls .lateDelivered 1).alerts.saturation
          incidents := (s.raise ⟨.lateResponse, some r.cls, some (r.source, r.tag), some k,
            some r.address, 0⟩).incidents }

/-- MATCH of a response whose tag names an EXPIRED slot that owes nothing, with the equal epoch, absorbs it:
it is discarded and counted as a late response, LATE_RESPONSE says absorbed, and the slot is FREE. A response
whose tag names a FREE slot or another epoch is stray: it is discarded, counted and reported, and no slot
changes. With no UNMATCHED response in the register the event finds nothing (R126, R129, R130, R142), which is
the model's choice (log entry 2), and so is that the incident is recorded within the match (log entry 5). -/
def Obligations.MatchAbsorbsOrStrays : Prop :=
  ∀ (s : State) (resp : MemResponse) (k : SlotId), s.phase = .running →
    (∀ r : SlotRecord, s.ret.register = .unmatched resp →
        resp.tag.toNat = 8 * k.val + s.transit.slots[k].epoch.toNat →
        s.transit.slots[k].state = .expired r false →
        ∃ t : State, exec .matchResponse s = .next t
          ∧ t.transit.slots[k] = { epoch := s.transit.slots[k].epoch, state := .free }
          ∧ (∀ k' : SlotId, k' ≠ k → t.transit.slots[k'] = s.transit.slots[k'])
          ∧ t = { s with
              transit.slots := t.transit.slots
              ret.register := .empty
              stats.live := (s.countClass r.cls .lateResponses 1).stats.live
              alerts.saturation := (s.countClass r.cls .lateResponses 1).alerts.saturation
              incidents := (s.raise ⟨.lateResponse, some r.cls, some (r.source, r.tag), some k,
                some r.address, 1⟩).incidents })
      ∧ (∀ e : BitVec 3, s.ret.register = .unmatched resp → resp.tag.toNat = 8 * k.val + e.toNat →
        s.transit.slots[k].state = .free ∨ s.transit.slots[k].epoch ≠ e →
        exec .matchResponse s = .next
          (({ s with ret.register := .empty }.countGlobal .stray 1).raise
            ⟨.strayResponse, none, none, some k, none,
              BitVec.ofNat 32 (e.toNat + 256 * s.transit.slots[k].epoch.toNat
                + 65536 * slotCode s.transit.slots[k].state)⟩))
      ∧ ((∀ x : MemResponse, s.ret.register ≠ .unmatched x) → exec .matchResponse s = .next s)

/-! ## Response return -/

/-- What the fabric port offers: the real response with its source, tag, status and data; or the answer the
list head owes, with no data, with the owner's source and tag, and CANCELLED for a CANCELLING entry, TIMEOUT
for an EXPIRED slot, LOST for a LOST slot, MALFORMED or TAG_REUSE as owed for the intake (R8, R9, R10, R147).
An open offer is not exchanged: it stands as it is until the fabric takes it, the fabric link goes down, a
reset, or a supersede of the slot whose answer it is; only a memory link-down makes TIMEOUT on offer LOST
(R141, R147, R149). REAL_RESPONSE_LEAVES, with the real response on offer: the register is EMPTY, a
COMPLETION's total time enters its class's histogram, the turn names ANSWER, and the channel offers the list
head or is idle (R144, R150). ANSWER_LEAVES, with the answer of the list's head on offer: the reference leaves
the list, the turn names REAL, the channel makes its next choice, and the owner completes its transition: the
intake is EMPTY, a CANCELLING entry is FREE, an EXPIRED slot owes nothing, a LOST slot is FREE (R148, R150).
That what has left is recorded nowhere, and that the choice is made within the event, is the model's reading
(log entries 5, 7). -/
def Obligations.ResponsesLeave : Prop :=
  (∀ s : State, (s.ret.channel = .idle → s.offered? = none)
      ∧ (∀ r : RealResponse, s.ret.channel = .real → s.ret.register = .matched r →
          s.offered? = some ⟨r.source, r.tag,
            (match r.status with
              | .okay => .okay
              | .memfault => .memfault), r.data⟩)
      ∧ ∀ (o : Owner) (rest : List Owner), s.ret.channel = .answer → s.ret.answers = o :: rest →
          (∀ (source : BitVec 6) (tag : BitVec 8), o = .intake →
              (s.intake.register = .rejecting source tag .malformed →
                  s.offered? = some ⟨source, tag, .malformed, []⟩)
                ∧ (s.intake.register = .rejecting source tag .tagReuse →
                  s.offered? = some ⟨source, tag, .tagReuse, []⟩))
            ∧ (∀ (e : EntryId) (r : HoldRecord), o = .entry e → s.pool.entries[e] = .cancelling r →
                s.offered? = some ⟨r.source, r.tag, .cancelled, []⟩)
            ∧ ∀ (k : SlotId) (r : SlotRecord), o = .slot k →
                (s.transit.slots[k].state = .expired r true →
                    s.offered? = some ⟨r.source, r.tag, .timeout, []⟩)
                  ∧ (s.transit.slots[k].state = .lost r →
                    s.offered? = some ⟨r.source, r.tag, .lost, []⟩))
    ∧ (∀ (c : Instr) (s t : State) (x : FabricResponse), exec c s = .next t → s.offered? = some x →
        isReset c = false → c ≠ .fabricLinkDown →
        (s.ret.channel = .real → c ≠ .realResponseLeaves →
            t.ret.channel = .real ∧ t.offered? = some x)
          ∧ ∀ (o : Owner) (rest : List Owner), s.ret.channel = .answer → s.ret.answers = o :: rest →
              c ≠ .answerLeaves →
              (t.ret.channel = .answer ∧ t.ret.answers.head? = some o
                  ∧ (t.offered? = some x
                    ∨ (c = .memoryLinkDown ∧ x.status = .timeout
                      ∧ t.offered? = some { x with status := .lost })))
                ∨ (c = .matchResponse ∧ ∃ (k : SlotId) (resp : MemResponse), o = .slot k
                    ∧ s.ret.register = .unmatched resp
                    ∧ resp.tag.toNat = 8 * k.val + s.transit.slots[k].epoch.toNat))
    ∧ (∀ (s : State) (r : RealResponse), s.phase = .running → s.ret.link = .up →
      s.ret.channel = .real → s.ret.register = .matched r →
      exec .realResponseLeaves s = .next
        { (match r.origin with
            | .completion => s.countClass r.cls
                (.bin (histogramBin s.stats.boundaries (s.time - r.arrival).toNat)) 1
            | .supersede => s) with
          ret := { s.ret with
            register := .empty
            turn := .answer
            channel := if s.ret.answers = [] then .idle else .answer } })
    ∧ ∀ (s : State) (o : Owner) (rest : List Owner), s.phase = .running → s.ret.link = .up →
        s.ret.channel = .answer → s.ret.answers = o :: rest → (s.answerOf o).isSome = true →
        ∃ t : State, exec .answerLeaves s = .next t
          ∧ t.ret = { s.ret with
              answers := rest
              turn := .real
              channel := if s.ret.register.isMatched then .real else if rest = [] then .idle else .answer }
          ∧ (match o with
              | .intake => t = { s with ret := t.ret, intake.register := .empty }
              | .entry e => t = { s with ret := t.ret, pool.entries := s.pool.entries.set e .free }
              | .slot k =>
                t = { s with ret := t.ret, transit.slots := t.transit.slots }
                  ∧ t.transit.slots[k] = { epoch := s.transit.slots[k].epoch
                                           state := (match s.transit.slots[k].state with
                                            | .expired r _ => .expired r false
                                            | .free => .free
                                            | .inFlight _ _ _ => .free
                                            | .lost _ => .free) }
                  ∧ ∀ k' : SlotId, k' ≠ k → t.transit.slots[k'] = s.transit.slots[k'])

/-! ## Statistics, incidents and alerts -/

/-- The bin of a total time: with the boundaries in force ascending, it has reached the boundaries up to the
bin's number and none after (R159). A counting event adds to one counter of one record, stays at 2^32 − 1
where the sum would pass it, and then sets the record's saturated flag and the alert flag SATURATION (R157).
The waited-for-budget flag is set by an event only on a class head that is then in BUDGET_WAIT and stays set
while the entry is QUEUED; and where the event does not zero the live records, a class's budget-waits counter
rises by one exactly if its head's flag is newly set (R97). That this count falls within the event that brings
the condition is the model's reading (log entry 5). -/
def Obligations.CountingRules : Prop :=
  (∀ (s : State) (t : Nat), s.BoundariesSound → ∀ j : Fin 7,
      (j.val < (histogramBin s.stats.boundaries t).val ↔ s.stats.boundaries[j].toNat ≤ t))
    ∧ (∀ (s : State) (c : ClassId) (k : ClassCounter) (n : Nat),
        ((s.countClass c k n).stats.live[c].get k).toNat
            = min (2 ^ 32 - 1) ((s.stats.live[c].get k).toNat + n)
          ∧ (∀ k' : ClassCounter, k' ≠ k →
              (s.countClass c k n).stats.live[c].get k' = s.stats.live[c].get k')
          ∧ (∀ c' : ClassId, c' ≠ c → (s.countClass c k n).stats.live[c'] = s.stats.live[c'])
          ∧ ((s.countClass c k n).stats.live[c].saturated = true ↔
              s.stats.live[c].saturated = true ∨ 2 ^ 32 ≤ (s.stats.live[c].get k).toNat + n)
          ∧ ((s.countClass c k n).alerts.saturation = true ↔
              s.alerts.saturation = true ∨ 2 ^ 32 ≤ (s.stats.live[c].get k).toNat + n))
    ∧ (∀ (s : State) (k : GlobalCounter) (n : Nat),
        ((s.countGlobal k n).stats.globals.get k).toNat
            = min (2 ^ 32 - 1) ((s.stats.globals.get k).toNat + n)
          ∧ (∀ k' : GlobalCounter, k' ≠ k →
              (s.countGlobal k n).stats.globals.get k' = s.stats.globals.get k')
          ∧ ((s.countGlobal k n).stats.globals.saturated = true ↔
              s.stats.globals.saturated = true ∨ 2 ^ 32 ≤ (s.stats.globals.get k).toNat + n)
          ∧ ((s.countGlobal k n).alerts.saturation = true ↔
              s.alerts.saturation = true ∨ 2 ^ 32 ≤ (s.stats.globals.get k).toNat + n))
    ∧ ∀ (c : Instr) (s t : State) (order : List EntryId), t.PlacedInOrder order → exec c s = .next t →
        isReset c = false →
        (∀ e : EntryId, t.noted e = true → s.noted e = false →
            ∃ i : ClassId, t.headCondition i = .budgetWait ∧ t.head? i = some e)
          ∧ (∀ e : EntryId, s.noted e = true → t.pool.entries[e].isQueued = true → t.noted e = true)
          ∧ ∀ i : ClassId,
              (t.stats.live[i] = ClassStats.zero ∧ s.headNewlyNoted t i = false)
                ∨ t.stats.live[i].budgetWaits
                  = satAdd s.stats.live[i].budgetWaits (if s.headNewlyNoted t i then 1 else 0)

/-- SNAPSHOT in EMPTY and an auto-snapshot in EMPTY copy the live records to the bank, zero them, start the
interval anew, lock the bank and set the alert flag; in LOCKED the command is refused and the expiry skipped
and reported, both counted as missed; the expiry leaves the command status alone and restarts its timer.
SNAPSHOT_RELEASE unlocks; STATS_CLEAR zeroes (R163, R164, R165, R166). That an expiry passed at an earlier
microsecond is still taken and restarts the timer at the present time, and that SNAPSHOT_MISSED is recorded
within the expiry, are the model's choices (log entries 4, 5). -/
def Obligations.SnapshotsAndClears : Prop :=
  ∀ (s : State) (b : Byte) (zeroed : Statistics), s.phase = .running →
    zeroed = { s.stats with
      live := Vector.replicate 16 ClassStats.zero
      globals := GlobalStats.zero
      intervalStart := s.time } →
    (s.port.status.state ≠ .running →
        (s.stats.bank.state = .empty →
            exec (.snapshot b) s = .next { s with
                stats := { zeroed with bank :=
                  ⟨.locked, s.stats.live, s.stats.globals, s.time, s.time - s.stats.intervalStart⟩ }
                alerts.snapshot := true
                port := s.portAfter 8 b .done .none 0 }
              ∧ exec (.snapshotRelease b) s = .next { s with
                port := s.portAfter 9 b .refused .bankEmpty 0 })
          ∧ (s.stats.bank.state = .locked →
            exec (.snapshot b) s = .next { s.countGlobal .snapshotsMissed 1 with
                port := s.portAfter 8 b .refused .bankLocked 0 }
              ∧ exec (.snapshotRelease b) s = .next { s with
                stats.bank.state := .empty
                alerts.snapshot := false
                port := s.portAfter 9 b .done .none 0 })
          ∧ exec (.statsClear b) s = .next { s with
              stats := zeroed
              port := s.portAfter 10 b .done .none 0 })
      ∧ (s.stats.autoInterval ≠ 0
            ∧ s.stats.autoInterval.toNat * 1000 ≤ (s.time - s.stats.timerStart).toNat →
          (s.stats.bank.state = .empty → exec .autoSnapshotExpiry s = .next { s with
              stats := { zeroed with
                bank :=
                  ⟨.locked, s.stats.live, s.stats.globals, s.time, s.time - s.stats.intervalStart⟩
                timerStart := s.time }
              alerts.snapshot := true })
            ∧ (s.stats.bank.state = .locked → exec .autoSnapshotExpiry s = .next
              { (s.countGlobal .snapshotsMissed 1).raise
                  ⟨.snapshotMissed, none, none, none, none, s.stats.bank.time⟩ with
                stats.timerStart := s.time }))
      ∧ (s.stats.autoInterval = 0
            ∨ (s.time - s.stats.timerStart).toNat < s.stats.autoInterval.toNat * 1000 →
          exec .autoSnapshotExpiry s = .next s)

/-- A raised incident takes the sequence counter; with fewer than 32 records it joins the tail with the time,
its fields and the drop count as its gap, and the drop count is 0; with 32 it is dropped and counted, up to
65535 (R171). Nothing else changes. INCIDENTS_CLEAR discards every record and keeps the sequence counter
(R173). ALERT_N is low exactly while some flag is set whose enable is set, the flag INCIDENT being set while
the queue holds a record (R175, R176). That the events of the other statements raise their incidents within
themselves is the model's choice (log entry 5). -/
def Obligations.IncidentsRecordedOrDropped : Prop :=
  (∀ (s : State) (body : IncidentBody),
      (s.incidents.records.length < 32 → s.raise body = { s with
          incidents.records := s.incidents.records
            ++ [⟨s.incidents.sequence, s.time, body, s.incidents.dropCount⟩]
          incidents.dropCount := 0
          incidents.sequence := s.incidents.sequence + 1 })
        ∧ (32 ≤ s.incidents.records.length → s.raise body = { s with
          incidents.dropCount := BitVec.ofNat 16 (min 65535 (s.incidents.dropCount.toNat + 1))
          incidents.sequence := s.incidents.sequence + 1 }))
    ∧ (∀ (s : State) (b : Byte), s.phase = .running → s.port.status.state ≠ .running →
        exec (.incidentsClear b) s = .next { s with
          incidents := ⟨[], 0, s.incidents.sequence, false⟩
          port := s.portAfter 11 b .done .none (BitVec.ofNat 16 s.incidents.records.length) })
    ∧ ∀ s : State, s.alertLow = true ↔
        (s.incidents.records ≠ [] ∧ s.alerts.enables.incident = true)
          ∨ (s.alerts.snapshot = true ∧ s.alerts.enables.snapshot = true)
          ∨ (s.alerts.quiesce = true ∧ s.alerts.enables.quiesce = true)
          ∨ (s.alerts.saturation = true ∧ s.alerts.enables.saturation = true)

/-! ## The management port -/

/-- I2C_ADDRESS: the part answers its own address, 0x58 plus the straps, in either direction, and no other;
OFFSET_WRITE sets the window offset, high byte first; TRANSFER_END and every START discard the write assembly
(R178, R179, R182). On the bus, SDA falling with SCL high is a START and rising a STOP; a bit is SDA as SCL
goes high; eight bits, most significant first, and a ninth that acknowledges when low, are a byte, and a START
or STOP within it drops it; the first byte is the address and, in its lowest bit, the direction; the bytes of
a write transfer are the offset and then window bytes, those of a read transfer are sent up to the one the
master does not acknowledge; and a transfer at another address spells nothing (R178, R179, R180, R182). The
model's choices: a TRANSFER_END leaves no acknowledge (log entry 10), what is clocked after the master's
not-acknowledge spells nothing (log entry 19), and the moments of a bit and of a byte (log entry 21). -/
def Obligations.TransfersOpenAndEnd : Prop :=
  (∀ (s : State) (address : BitVec 7) (direction : I2cDirection) (high low : Byte), s.phase = .running →
    (address.toNat = 0x58 + s.port.straps.toNat →
        exec (.i2cAddress address direction) s = .next { s with
          port.bus := match direction with
            | .write => .awaitOffset
            | .read => .reading
          port.ack := true
          port.assembly := none })
      ∧ (address.toNat ≠ 0x58 + s.port.straps.toNat →
          exec (.i2cAddress address direction) s = .next { s with
            port.bus := .idle
            port.ack := false
            port.assembly := none })
      ∧ (s.port.bus = .awaitOffset → exec (.offsetWrite high low) s = .next { s with
          port.bus := .writing
          port.ack := true
          port.offset := BitVec.ofNat 16 (256 * high.toNat + low.toNat) })
      ∧ exec .transferEnd s = .next { s with
          port.bus := .idle
          port.ack := false
          port.assembly := none })
    ∧ (∀ x y : Bool,
        busSignal ⟨true, true⟩ ⟨true, false⟩ = some .start
          ∧ busSignal ⟨true, false⟩ ⟨true, true⟩ = some .stop
          ∧ busSignal ⟨true, x⟩ ⟨true, x⟩ = none ∧ busSignal ⟨false, x⟩ ⟨true, y⟩ = some (.bit y)
          ∧ busSignal ⟨true, x⟩ ⟨false, y⟩ = none ∧ busSignal ⟨false, x⟩ ⟨false, y⟩ = none)
    ∧ (∀ (b : Byte) (ninth : Bool) (bits : List Bool) (rest : List BusSignal),
        busEvents [] ([7, 6, 5, 4, 3, 2, 1, 0].map (fun i => .bit (b.getLsbD i)) ++ .bit ninth :: rest)
            = .byte b (!ninth) :: busEvents [] rest
          ∧ busEvents bits (.start :: rest) = .start :: busEvents [] rest
          ∧ busEvents bits (.stop :: rest) = .stop :: busEvents [] rest)
    ∧ ∀ (target address : BitVec 7) (direction : I2cDirection) (b high low last : Byte)
        (bytes : List Byte) (more : List (Byte × Bool)) (phase : BusPhase) (rest : List BusEvent),
        b.toNat = 2 * address.toNat + (match direction with
          | .write => 0
          | .read => 1) →
        (address = target → direction = .write →
            busCommands target .idle (.start :: .byte b true :: .byte high true :: .byte low true
                :: (bytes.map (fun x => .byte x true) ++ .stop :: rest))
              = .i2cAddress address .write :: .offsetWrite high low
                :: (bytes.map .windowWrite ++ .transferEnd :: busCommands target .idle rest))
          ∧ (address = target → direction = .write →
            busCommands target .idle (.start :: .byte b true :: .byte high true :: .stop :: rest)
              = .i2cAddress address .write :: .transferEnd :: busCommands target .idle rest)
          ∧ (address = target → direction = .read →
            busCommands target .idle (.start :: .byte b true
                :: (bytes.map (fun x => .byte x true) ++ .byte last false
                  :: (more.map (fun p => .byte p.1 p.2) ++ .stop :: rest)))
              = .i2cAddress address .read :: (List.replicate (bytes.length + 1) .fieldLatch
                ++ .transferEnd :: busCommands target .idle rest))
          ∧ (address ≠ target →
            busCommands target .idle (.start :: .byte b false
                :: (more.map (fun p => .byte p.1 p.2) ++ .stop :: rest))
              = .i2cAddress address direction :: .transferEnd :: busCommands target .idle rest)
          ∧ (phase ≠ .idle → busCommands target phase (.start :: rest)
              = .transferEnd :: busCommands target .addressing rest)

/-- WINDOW_WRITE in a write transfer is acknowledged and the offset advances, from 65535 to 0. The first byte
of a writable field starts an assembly, the next byte of the field in assembly joins it, and with the last
byte the whole value is handed to the owner; a byte out of order, of a read-only field or outside the window
is discarded with the assembly (R179, R182). -/
def Obligations.WindowBytesAssemble : Prop :=
  ∀ (s u : State) (b : Byte), s.phase = .running → s.port.bus = .writing →
    u = { s with port.ack := true, port.assembly := none } →
    (∀ (f : Field) (i : Nat) (earlier : List Byte), fieldAt s.port.offset = some (f, i) →
        f.writable = true → earlier.length = i →
        (i ≠ 0 → s.port.assembly = some (f, earlier)) →
        (i + 1 = f.size → exec (.windowWrite b) s = .next
            { u.takeField f (earlier ++ [b]) with port.offset := s.port.offset + 1 })
          ∧ (i + 1 < f.size → exec (.windowWrite b) s = .next { u with
              port.offset := s.port.offset + 1
              port.assembly := some (f, earlier ++ [b]) }))
      ∧ ((∀ (f : Field) (i : Nat), fieldAt s.port.offset = some (f, i) →
            f.writable = false ∨ (i ≠ 0 ∧
              ∀ earlier : List Byte, s.port.assembly = some (f, earlier) → earlier.length ≠ i)) →
          exec (.windowWrite b) s = .next { u with port.offset := s.port.offset + 1 })

/-- A field that takes effect is the write event of its own row: the bytes, least significant first, are the
value (R182, R183, R193). That the rows of fields and commands need no transfer to be open is the model's
choice (log entry 12), and that UNKNOWN_COMMAND_CODE with a code that names a command is that command's write
is its deduction (log entry 14). -/
def Obligations.FieldsTakeEffectAsTheirRows : Prop :=
  ∀ (s : State) (x : BitVec 16) (b : Byte) (c : ClassId) (e : MapIndex) (m : MatchEntry),
    s.phase = .running →
    exec (.defaultClassWrite b) s = .next (s.takeField .defaultClass [b])
      ∧ exec (.stallLimitWrite x) s = .next (s.takeField .stallLimit (leBytes 2 x.toNat))
      ∧ exec (.autoSnapshotIntervalWrite x) s = .next (s.takeField .autoInterval (leBytes 2 x.toNat))
      ∧ exec (.alertEnablesWrite b) s = .next (s.takeField .alertEnables [b])
      ∧ exec (.alertFlagsWrite b) s = .next (s.takeField .alertFlags [b])
      ∧ (∀ v : Vector (BitVec 16) 7, exec (.histogramBoundariesWrite v) s
          = .next (s.takeField .boundaries (v.toList.flatMap (fun y => leBytes 2 y.toNat))))
      ∧ exec (.shadowEntryWrite e m) s = .next (s.takeField (.shadowEntry e) (matchEntryBytes m))
      ∧ (∀ f : SettingField, (f.isByte = true → x.toNat < 256) →
          exec (.stagedSettingWrite c f x) s
            = .next (s.takeField (.staged c f) (leBytes (settingSize f) x.toNat)))
      ∧ (∀ (i : Instr) (code : Byte), commandBytes i = some (code, b) →
          exec i s = .next (s.takeField .command [code, b]))

/-- FIELD_LATCH in a read transfer sends the byte at the window offset and advances it: 0 outside the window;
the first byte of a field of more than one byte latches the field whole; any other byte comes from the latch
where it holds the field, and live where it does not (R180, R181). The first byte of the incident head, with a
record in the queue, sets the head mark; its last byte, with the mark set, removes the head record and clears
the mark; no other read changes anything of the queue (R172). That the row FIELD_LATCH stands for every byte a
read transfer sends is the model's choice (log entry 12). -/
def Obligations.ReadsComeFromTheLatch : Prop :=
  ∀ (s : State), s.phase = .running → s.port.bus = .reading →
    (fieldAt s.port.offset = none → exec .fieldLatch s = .next { s with
        port.sent := 0
        port.offset := s.port.offset + 1 })
      ∧ ∀ (f : Field) (i : Nat), fieldAt s.port.offset = some (f, i) →
          (i = 0 → 1 < f.size → exec .fieldLatch s = .next { s with
              incidents.headMark := if f = .incidentHead ∧ s.incidents.records ≠ [] then true
                else s.incidents.headMark
              port.sent := byteAt (s.fieldBytes f) 0
              port.latch := some (f, s.fieldBytes f)
              port.offset := s.port.offset + 1 })
            ∧ (i ≠ 0 ∨ f.size = 1 → exec .fieldLatch s = .next { s with
              incidents.records :=
                if f = .incidentHead ∧ i = 22 ∧ s.incidents.headMark = true then s.incidents.records.tail
                else s.incidents.records
              incidents.headMark :=
                if f = .incidentHead ∧ i = 22 then false else s.incidents.headMark
              port.sent := (match s.port.latch with
                | some (g, bytes) =>
                  if g = f ∧ i ≠ 0 then byteAt bytes i else byteAt (s.fieldBytes f) i
                | none => byteAt (s.fieldBytes f) i)
              port.offset := s.port.offset + 1 })

/-- INCIDENT_HEAD_LATCH latches the head record whole and sets the head mark; with the queue empty it latches
kind NONE with every byte 0 and leaves the mark as it is. INCIDENT_HEAD_REMOVE with the mark set removes the
head record and clears the mark; with the mark clear it removes nothing. It sends the last byte from the latch
where that holds the incident head, and from the live record where it does not (R172, R181, R196). That the
two rows act with no read transfer open, and leave the window offset after the byte they read whatever it was
before, is the model's choice (log entry 12). -/
def Obligations.IncidentHeadReadAndRemoved : Prop :=
  ∀ s : State, s.phase = .running →
    (∀ (i : Incident) (rest : List Incident), s.incidents.records = i :: rest →
        exec .incidentHeadLatch s = .next { s with
            incidents.headMark := true
            port.latch := some (.incidentHead, incidentBytes (some i))
            port.sent := BitVec.ofNat 8 i.sequence.toNat
            port.offset := 0x91 })
      ∧ (s.incidents.records = [] → exec .incidentHeadLatch s = .next { s with
          port.latch := some (.incidentHead, List.replicate 23 0)
          port.sent := 0
          port.offset := 0x91 })
      ∧ ∃ sent : Byte,
          (∀ bytes : List Byte, s.port.latch = some (.incidentHead, bytes) → sent = byteAt bytes 22)
            ∧ ((∀ bytes : List Byte, s.port.latch ≠ some (.incidentHead, bytes)) →
                sent = byteAt (incidentBytes s.incidents.records.head?) 22)
            ∧ (s.incidents.headMark = true → exec .incidentHeadRemove s = .next { s with
                incidents.records := s.incidents.records.tail
                incidents.headMark := false
                port.sent := sent
                port.offset := 0xA7 })
            ∧ (s.incidents.headMark = false → exec .incidentHeadRemove s = .next { s with
                port.sent := sent
                port.offset := 0xA7 })

/-- The write events of the single fields: a staged setting takes its value and the class's pending flag is
cleared (R78); a shadow entry is replaced whole (R66); the default class takes bits 3:0 (R65); the
auto-snapshot interval is set and a value above 0 starts its timer (R166); ascending boundaries replace those
in force and others raise CONFIG_REJECTED with the first that fails (R160); a one clears a latched alert flag
(R175); the enables are replaced (R176). Each changes nothing else. The model's choices: CONFIG_REJECTED is
recorded within the write (log entry 5), and the rows need no transfer to be open (log entry 12). -/
def Obligations.FieldWritesReachTheirOwners : Prop :=
  ∀ (s : State) (x : BitVec 16) (b : Byte) (c : ClassId) (e : MapIndex) (m : MatchEntry)
    (f : SettingField), s.phase = .running → (f.isByte = true → x.toNat < 256) →
    (∃ t : State, exec (.stagedSettingWrite c f x) s = .next t
        ∧ t.budget[c].staged.get f = x.toNat
        ∧ (∀ g : SettingField, g ≠ f → t.budget[c].staged.get g = s.budget[c].staged.get g)
        ∧ t.budget[c] = { s.budget[c] with staged := t.budget[c].staged, pending := false }
        ∧ (∀ c' : ClassId, c' ≠ c → t.budget[c'] = s.budget[c']) ∧ t = { s with budget := t.budget })
      ∧ exec (.shadowEntryWrite e m) s = .next { s with
          map.bankA := if s.map.active = .b then s.map.bankA.set e m else s.map.bankA
          map.bankB := if s.map.active = .a then s.map.bankB.set e m else s.map.bankB }
      ∧ (∃ t : State, exec (.defaultClassWrite b) s = .next t ∧ t.map.defaultClass.val = b.toNat % 16
        ∧ t = { s with map.defaultClass := t.map.defaultClass })
      ∧ exec (.autoSnapshotIntervalWrite x) s = .next { s with
          stats.autoInterval := x
          stats.timerStart := if x = 0 then s.stats.timerStart else s.time }
      ∧ (∀ v : Vector (BitVec 16) 7,
          ({ s with stats.boundaries := v }.BoundariesSound →
              exec (.histogramBoundariesWrite v) s = .next { s with stats.boundaries := v })
            ∧ (∀ i : Fin 7, (i.val = 0 → v[0] = 0) →
                (∀ _ : i.val ≠ 0, v[i].toNat ≤ (v[i.val - 1]'(by omega)).toNat) →
                (i.val ≠ 0 → v[0] ≠ 0) →
                (∀ j : Fin 7, j < i → ∀ _ : j.val ≠ 0, (v[j.val - 1]'(by omega)).toNat < v[j].toNat) →
                exec (.histogramBoundariesWrite v) s = .next (s.raise
                  ⟨.configRejected, none, none, none, none,
                    BitVec.ofNat 32 (1 + 256 * (i.val + 1))⟩)))
      ∧ exec (.alertFlagsWrite b) s = .next { s with
          alerts.snapshot := s.alerts.snapshot && !b.getLsbD 1
          alerts.quiesce := s.alerts.quiesce && !b.getLsbD 2
          alerts.saturation := s.alerts.saturation && !b.getLsbD 3 }
      ∧ exec (.alertEnablesWrite b) s = .next { s with
          alerts.enables := ⟨b.getLsbD 0, b.getLsbD 1, b.getLsbD 2, b.getLsbD 3⟩ }

/-! ## Commands of the command register -/

/-- The port's own refusals: while the status is RUNNING every command but RESUME is refused BUSY, which
changes only the register and the two busy fields; otherwise a code that names no command is refused
BAD_ARGUMENT with detail 1, and a class above 15 with detail 2 (R184, R185). That the command register reads
back also the write that was refused BUSY, and that UNKNOWN_COMMAND_CODE with a known code is that command's
write, is the model's deduction (log entry 14): R184 says of a BUSY refusal that only the busy fields change.
-/
def Obligations.PortRefusals : Prop :=
  ∀ s : State, s.phase = .running →
    (s.port.status.state = .running → ∀ (c : Instr) (code b : Byte),
        commandBytes c = some (code, b) → code ≠ 2 → exec c s = .next { s with
          port.commandCode := code
          port.commandArgument := b
          port.status.busyRefusals := BitVec.ofNat 8 (min 255 (s.port.status.busyRefusals.toNat + 1))
          port.status.busyCode := code })
      ∧ (s.port.status.state ≠ .running → ∀ code b : Byte,
        (code.toNat = 0 ∨ 13 ≤ code.toNat → exec (.unknownCommandCode code b) s = .next { s with
            port := s.portAfter code b .refused .badArgument 1 })
          ∧ (16 ≤ b.toNat →
            exec (.classCommit b) s = .next { s with
                port := s.portAfter 4 b .refused .badArgument 2 }
              ∧ exec (.classApply b) s = .next { s with
                port := s.portAfter 5 b .refused .badArgument 2 }
              ∧ exec (.classDiscard b) s = .next { s with
                port := s.portAfter 6 b .refused .badArgument 2 }))

/-- QUIESCE from OPEN is RUNNING with the number of slots in flight, and completes at once when that is 0; in
QUIESCED it is refused ALREADY. RESUME, taken even while RUNNING, returns to OPEN with DONE, clearing the
alert flag from QUIESCED; in OPEN it is refused NOT_QUIESCED (R112, R113, R114). The detail of the two
refusals is a free value (log entry 11). -/
def Obligations.QuiesceAndResume : Prop :=
  ∀ (s : State) (b : Byte) (n : Nat), s.phase = .running →
    n = s.countSlots SlotState.isInFlight →
    (s.port.status.state ≠ .running →
        (s.arbiter.quiesce = .opened → n ≠ 0 → exec (.quiesce b) s = .next { s with
            arbiter.quiesce := .quiescing
            port := s.portAfter 1 b .running .none (BitVec.ofNat 16 n) })
          ∧ (s.arbiter.quiesce = .opened → n = 0 → exec (.quiesce b) s = .next { s with
            arbiter.quiesce := .quiesced
            alerts.quiesce := true
            port := s.portAfter 1 b .done .none 0 })
          ∧ (s.arbiter.quiesce = .quiesced → exec (.quiesce b) s = .next { s with
            draws := s.draws + 1
            port := s.portAfter 1 b .refused .already (Config.unstatedDetail s.draws) }))
      ∧ (s.arbiter.quiesce = .quiescing → exec (.resume b) s = .next { s with
          arbiter.quiesce := .opened
          port := s.portAfter 2 b .done .none 0 })
      ∧ (s.arbiter.quiesce = .quiesced → exec (.resume b) s = .next { s with
          arbiter.quiesce := .opened
          alerts.quiesce := false
          port := s.portAfter 2 b .done .none 0 })
      ∧ (s.arbiter.quiesce = .opened → exec (.resume b) s = .next { s with
          draws := s.draws + 1
          port := s.portAfter 2 b .refused .notQuiesced (Config.unstatedDetail s.draws) })

/-- MAP_SWAP makes the shadow bank active, with its name as detail, and copies no entry (R67); PURGE frees
every EXPIRED slot that owes nothing, keeping its epoch, with their number as detail, and no other slot
changes (R134). -/
def Obligations.SwapAndPurge : Prop :=
  ∀ (s : State) (b : Byte), s.phase = .running → s.port.status.state ≠ .running →
    (s.map.active = .a → exec (.mapSwap b) s = .next { s with
        map.active := .b
        port := s.portAfter 3 b .done .none 1 })
      ∧ (s.map.active = .b → exec (.mapSwap b) s = .next { s with
        map.active := .a
        port := s.portAfter 3 b .done .none 0 })
      ∧ ∃ t : State, exec (.purge b) s = .next t
          ∧ (∀ k : SlotId, t.transit.slots[k].epoch = s.transit.slots[k].epoch
              ∧ ((∃ r : SlotRecord, s.transit.slots[k].state = .expired r false) →
                  t.transit.slots[k].state = .free)
              ∧ ((∀ r : SlotRecord, s.transit.slots[k].state ≠ .expired r false) →
                  t.transit.slots[k].state = s.transit.slots[k].state))
          ∧ t = { s with
              transit.slots := t.transit.slots
              port := s.portAfter 7 b .done .none
                (BitVec.ofNat 16 (t.countSlots SlotState.isFree - s.countSlots SlotState.isFree)) }

/-- CLASS_COMMIT and CLASS_APPLY run the six checks in order: the first that fails refuses the command with
INVALID_SETTINGS and its number and changes nothing else; where all pass, the commit sets the pending flag
with the time to the class's boundary as detail, and the apply takes a forced boundary: the staged copy
becomes active, the account is clamped and replenished, the timer restarts (R79, R80, R81, R82). Heads newly
found in BUDGET_WAIT are counted within the event (R97; log entry 5). -/
def Obligations.CommitAndApply : Prop :=
  ∀ (s : State) (n : ClassId) (b : Byte) (r : Settings) (cap : Int), s.phase = .running →
    s.port.status.state ≠ .running → b.toNat = n.val → r = s.budget[n].staged →
    cap = (r.budget.toNat : Int) + (r.burst.toNat : Int) →
    (∀ i : Nat, 1 ≤ i → ¬ s.checkPasses n i → (∀ j : Nat, j < i → s.checkPasses n j) →
        exec (.classCommit b) s = .next { s with
            port := s.portAfter 4 b .refused .invalidSettings (BitVec.ofNat 16 i) }
          ∧ exec (.classApply b) s = .next { s with
            port := s.portAfter 5 b .refused .invalidSettings (BitVec.ofNat 16 i) })
      ∧ ((∀ i : Nat, s.checkPasses n i) →
        exec (.classCommit b) s = .next { s with
            budget := s.budget.set n { s.budget[n] with pending := true }
            port := s.portAfter 4 b .done .none (BitVec.ofNat 16
              (s.budget[n].active.period.toNat - (s.time - s.budget[n].lastBoundary).toNat)) }
          ∧ ∃ t : State, exec (.classApply b) s = .next t
              ∧ t.budget[n] = { staged := r, active := r, pending := false
                                account := min (min s.budget[n].account cap + (r.budget.toNat : Int)) cap
                                lastBoundary := s.time }
              ∧ (∀ c' : ClassId, c' ≠ n → t.budget[c'] = s.budget[c'])
              ∧ (∀ e : EntryId, t.pool.entries[e].unflagged = s.pool.entries[e].unflagged)
              ∧ s.CountsKept t (fun _ k => k = .budgetWaits) ∧ s.MaximaKept t
              ∧ t = { s with
                  budget := t.budget
                  pool.entries := t.pool.entries
                  stats.live := t.stats.live
                  alerts.saturation := t.alerts.saturation
                  port := s.portAfter 5 b .done .none 0 })

/-- CLASS_DISCARD n makes every entry of the class queue CANCELLING with an empty wait list, takes it from
every wait list, puts it on the answer list in queue order and counts it; the queue is empty, and DONE shows
the number (R34, R44). An idle response channel makes its choice, an open offer stands (R141, R150), and heads
newly found in BUDGET_WAIT are counted (R97), both within the event (log entry 5). -/
def Obligations.DiscardCancelsTheQueue : Prop :=
  ∀ (s : State) (n : ClassId) (b : Byte) (q : List EntryId), s.phase = .running →
    s.port.status.state ≠ .running → b.toNat = n.val → q = s.pool.queues[n] →
    ∃ t : State, exec (.classDiscard b) s = .next t
      ∧ (∀ e : EntryId, t.pool.entries[e].unflagged = (match s.pool.entries[e] with
          | .free => .free
          | .cancelling r => .cancelling r
          | .queued r =>
            if e ∈ q then .cancelling { r with waitList := [] }
            else HoldEntry.unflagged
              (.queued { r with waitList := r.waitList.filter (fun a => decide (a ∉ q)) })))
      ∧ t.pool.queues[n] = [] ∧ (∀ c' : ClassId, c' ≠ n → t.pool.queues[c'] = s.pool.queues[c'])
      ∧ t.stats.live[n].cancelled = satAdd s.stats.live[n].cancelled q.length
      ∧ s.CountsKept t (fun i k => k = .budgetWaits ∨ (i = n ∧ k = .cancelled)) ∧ s.MaximaKept t
      ∧ t = { s with
          pool := t.pool
          ret.answers := s.ret.answers ++ q.map Owner.entry
          ret.channel := t.channelAfter s.ret.channel
          stats.live := t.stats.live
          alerts.saturation := t.alerts.saturation
          port := s.portAfter 6 b .done .none (BitVec.ofNat 16 q.length) }

/-- DEFAULTS is refused NOT_QUIESCED unless QUIESCED, then NOT_EMPTY with detail 1 unless the pool is empty,
then NOT_EMPTY with detail 2 unless every slot is FREE. Otherwise settings, class map and global control take
their reset values, every period timer restarts, and a STALLED request is placed at this event, which ends its
episode and adds the duration to its class's stall time; everything else stays (R72, R186, R187). That the
retry falls within the event is the model's deduction (log entry 6). -/
def Obligations.DefaultsRestoreTheConfiguration : Prop :=
  ∀ (s : State) (b : Byte), s.phase = .running → s.port.status.state ≠ .running →
    (s.arbiter.quiesce ≠ .quiesced → exec (.defaults b) s = .next { s with
        port := s.portAfter 12 b .refused .notQuiesced 0 })
      ∧ (s.arbiter.quiesce = .quiesced → (∃ e : EntryId, s.pool.entries[e] ≠ .free) →
        exec (.defaults b) s = .next { s with port := s.portAfter 12 b .refused .notEmpty 1 })
      ∧ (s.arbiter.quiesce = .quiesced → (∀ e : EntryId, s.pool.entries[e] = .free) →
        (∃ k : SlotId, s.transit.slots[k].state ≠ .free) →
        exec (.defaults b) s = .next { s with port := s.portAfter 12 b .refused .notEmpty 2 })
      ∧ (s.arbiter.quiesce = .quiesced → (∀ e : EntryId, s.pool.entries[e] = .free) →
        (∀ k : SlotId, s.transit.slots[k].state = .free) →
        ∃ t : State, exec (.defaults b) s = .next t
          ∧ (∀ c : ClassId, t.budget[c] =
              ⟨⟨0, 0, 0, 0, 1000, 0, 0, 0, 192⟩, ⟨0, 0, 0, 0, 1000, 0, 0, 0, 192⟩, false, 0, s.time⟩)
          ∧ (∀ i : MapIndex, t.map.bankA[i] = ⟨false, false, false, false, 0, 0, 0, 0, 0⟩
              ∧ t.map.bankB[i] = ⟨false, false, false, false, 0, 0, 0, 0, 0⟩)
          ∧ t.map.active = .a ∧ t.map.defaultClass = 0
          ∧ t.stats.boundaries.toList = [1, 2, 4, 8, 16, 32, 64]
          ∧ ((∀ q : StalledRequest, s.intake.register ≠ .stalled q) →
              t.intake.register = s.intake.register ∧ t.pool = s.pool ∧ t.stats.live = s.stats.live
                ∧ t.alerts.saturation = s.alerts.saturation)
          ∧ (∀ q : StalledRequest, s.intake.register = .stalled q → q.data.length ≤ 1024 →
              t.intake.register = .empty ∧ ∃ r : HoldRecord, t.pool.entries[(0 : EntryId)] = .queued r
                ∧ r.source = q.source ∧ r.tag = q.tag ∧ r.cls = q.cls ∧ r.kind = q.kind
                ∧ r.address = q.address ∧ r.length = q.length ∧ r.arrival = q.arrival
                ∧ r.data = q.data ∧ r.waitList = []
                ∧ (∀ e : EntryId, e ≠ 0 → t.pool.entries[e] = .free)
                ∧ t.pool.queues[q.cls] = s.pool.queues[q.cls] ++ [0]
                ∧ ∀ c' : ClassId, c' ≠ q.cls → t.pool.queues[c'] = s.pool.queues[c'])
          ∧ (∀ q : StalledRequest, s.intake.register = .stalled q →
              s.CountsKept t (fun i k => i = q.cls ∧ k = .stallTime)
                ∧ (q.data.length ≤ 1024 → t.stats.live[q.cls].stallTime
                  = satAdd s.stats.live[q.cls].stallTime (s.time - q.stallStart).toNat))
          ∧ s.MaximaKept t
          ∧ t = { s with
              budget := t.budget
              map := t.map
              intake := ⟨t.intake.register, 0⟩
              pool := t.pool
              stats.live := t.stats.live
              stats.boundaries := t.stats.boundaries
              stats.autoInterval := 0
              alerts.saturation := t.alerts.saturation
              alerts.enables := ⟨false, false, false, false⟩
              port := s.portAfter 12 b .done .none 0 })

/-! ## Encodings -/

/-- The window map: the byte `i` of a field stands at the field's base plus `i`, and no offset belongs to two
fields (R183, R191); and every field reads as exactly its number of bytes (R181, R193 to R197). -/
def Obligations.WindowMapIsOneToOne : Prop :=
  (∀ (f : Field) (i : Nat), i < f.size → fieldAt (BitVec.ofNat 16 (f.base + i)) = some (f, i))
    ∧ (∀ (offset : BitVec 16) (f : Field) (i : Nat), fieldAt offset = some (f, i) →
        offset.toNat = f.base + i ∧ i < f.size)
    ∧ ∀ (s : State) (f : Field), (s.fieldBytes f).length = f.size

/-- The record layouts read back what they write: the headers of the two links, the credit messages, the
downstream tag, the class-map entry and the boundaries (R13, R193, R198). -/
def Obligations.RecordsReadBack : Prop :=
  (∀ (source : BitVec 6) (tag : BitVec 8) (kind : BitVec 3) (length : BitVec 5) (address : BitVec 40)
      (data : List Line),
      fabricRequestOf ((0 : BitVec 2) ++ source ++ tag ++ kind ++ length ++ address) data
        = ⟨source, tag, kind, address, length, data⟩)
    ∧ (∀ r : MemRequest, r.length < 32 →
        (memRequestHeader r).extractLsb' 0 40 = r.address
          ∧ ((memRequestHeader r).extractLsb' 40 5).toNat = r.length
          ∧ ((memRequestHeader r).extractLsb' 45 3).toNat = kindCode r.kind
          ∧ (memRequestHeader r).extractLsb' 48 10 = r.tag
          ∧ (memRequestHeader r).extractLsb' 58 6 = r.source)
    ∧ (∀ r : FabricResponse, (fabricResponseHeader r).extractLsb' 0 6 = r.source
        ∧ (fabricResponseHeader r).extractLsb' 6 8 = r.tag
        ∧ ((fabricResponseHeader r).extractLsb' 14 3).toNat = fabricStatusCode r.status)
    ∧ (∀ (tag : BitVec 10) (data : List Line),
        memResponseOf ((0 : BitVec 5) ++ (0 : BitVec 1) ++ tag) data = ⟨tag, .okay, data⟩
          ∧ memResponseOf ((0 : BitVec 5) ++ (1 : BitVec 1) ++ tag) data = ⟨tag, .memfault, data⟩)
    ∧ (∀ m : BitVec 6, creditMessageOf ((0 : BitVec 2) ++ m) = .creditGrant m
        ∧ creditMessageOf ((1 : BitVec 2) ++ m) = .creditReturn m)
    ∧ (∀ (k : SlotId) (e : BitVec 3),
        tagSlot (downstreamTag k e) = k ∧ tagEpoch (downstreamTag k e) = e)
    ∧ (∀ m : MatchEntry, matchEntryOf (matchEntryBytes m) = m)
    ∧ ∀ v : Vector (BitVec 16) 7,
        boundariesOf (v.toList.flatMap (fun b => leBytes 2 b.toNat)) = v
end

