-- ==== Sys2Proof/Laws/Bus.lean ====
section
/-! SUPPORT. What the bytes on the bus spell, one lemma for each kind of run (R178, R179, R180). -/

namespace Sys2Proof.Machine

/-- The first byte after a START, read back from its address and direction. -/
theorem firstByte_eq (b : Byte) (address : BitVec 7) (direction : I2cDirection)
    (h : b.toNat = 2 * address.toNat + (match direction with
      | .write => 0
      | .read => 1)) :
    firstByteAddress b = address ∧ firstByteDirection b = direction := by
  constructor
  · apply BitVec.eq_of_toNat_eq
    simp only [firstByteAddress, BitVec.extractLsb'_toNat, Nat.shiftRight_eq_div_pow]
    have := address.isLt
    cases direction <;> simp only at h <;> omega
  · unfold firstByteDirection
    rw [show b.getLsbD 0 = decide (b.toNat % 2 = 1) from by simp [BitVec.getLsbD, Nat.testBit_zero]]
    cases direction <;> simp only at h <;> simp <;> omega

/-- The byte whose bits these are, most significant first, is read back. -/
theorem byteOfBits_bits :
    ∀ b : Byte, byteOfBits ([7, 6, 5, 4, 3, 2, 1, 0].map (fun i => b.getLsbD i)) = b := by
  decide +kernel

/-- Every byte after the offset is a window byte. -/
theorem busCommands_windowBytes (target : BitVec 7) (bytes : List Byte) (rest : List BusEvent) :
    busCommands target .writing (bytes.map (fun x => .byte x true) ++ rest)
      = bytes.map .windowWrite ++ busCommands target .writing rest := by
  induction bytes with
  | nil => rfl
  | cons b bs ih => simp [busCommands, busByte, ih]

/-- Every acknowledged byte of a read transfer is one the part sends. -/
theorem busCommands_sentBytes (target : BitVec 7) (bytes : List Byte) (rest : List BusEvent) :
    busCommands target .reading (bytes.map (fun x => .byte x true) ++ rest)
      = List.replicate bytes.length .fieldLatch ++ busCommands target .reading rest := by
  induction bytes with
  | nil => rfl
  | cons b bs ih => simp [busCommands, busByte, ih, List.replicate_succ]

/-- Bytes that are not for the part spell nothing. -/
theorem busCommands_ignoredBytes (target : BitVec 7) (more : List (Byte × Bool))
    (rest : List BusEvent) :
    busCommands target .ignoring (more.map (fun p => .byte p.1 p.2) ++ rest)
      = busCommands target .ignoring rest := by
  induction more with
  | nil => rfl
  | cons b bs ih => simp [busCommands, busByte, ih]

end Sys2Proof.Machine
end

