-- ==== Sys2Proof/Laws/State.lean ====
section
/-! SUPPORT. One lemma per field per update of State: what each named update leaves as it was and what it
writes, so that no proof unfolds a record update. -/

namespace Sys2Proof.Machine

@[simp] theorem State.setEntry_phase (s : State) (e : EntryId) (v : HoldEntry) :
    (s.setEntry e v).phase = s.phase := rfl
@[simp] theorem State.setEntry_time (s : State) (e : EntryId) (v : HoldEntry) :
    (s.setEntry e v).time = s.time := rfl
@[simp] theorem State.setEntry_intake (s : State) (e : EntryId) (v : HoldEntry) :
    (s.setEntry e v).intake = s.intake := rfl
@[simp] theorem State.setEntry_map (s : State) (e : EntryId) (v : HoldEntry) :
    (s.setEntry e v).map = s.map := rfl
@[simp] theorem State.setEntry_pool_entries (s : State) (e : EntryId) (v : HoldEntry) :
    (s.setEntry e v).pool.entries = s.pool.entries.set e v := rfl
@[simp] theorem State.setEntry_pool_queues (s : State) (e : EntryId) (v : HoldEntry) :
    (s.setEntry e v).pool.queues = s.pool.queues := rfl
@[simp] theorem State.setEntry_budget (s : State) (e : EntryId) (v : HoldEntry) :
    (s.setEntry e v).budget = s.budget := rfl
@[simp] theorem State.setEntry_arbiter (s : State) (e : EntryId) (v : HoldEntry) :
    (s.setEntry e v).arbiter = s.arbiter := rfl
@[simp] theorem State.setEntry_mem (s : State) (e : EntryId) (v : HoldEntry) :
    (s.setEntry e v).mem = s.mem := rfl
@[simp] theorem State.setEntry_transit (s : State) (e : EntryId) (v : HoldEntry) :
    (s.setEntry e v).transit = s.transit := rfl
@[simp] theorem State.setEntry_ret (s : State) (e : EntryId) (v : HoldEntry) :
    (s.setEntry e v).ret = s.ret := rfl
@[simp] theorem State.setEntry_stats (s : State) (e : EntryId) (v : HoldEntry) :
    (s.setEntry e v).stats = s.stats := rfl
@[simp] theorem State.setEntry_incidents (s : State) (e : EntryId) (v : HoldEntry) :
    (s.setEntry e v).incidents = s.incidents := rfl
@[simp] theorem State.setEntry_alerts (s : State) (e : EntryId) (v : HoldEntry) :
    (s.setEntry e v).alerts = s.alerts := rfl
@[simp] theorem State.setEntry_port (s : State) (e : EntryId) (v : HoldEntry) :
    (s.setEntry e v).port = s.port := rfl
@[simp] theorem State.setEntry_cause (s : State) (e : EntryId) (v : HoldEntry) :
    (s.setEntry e v).cause = s.cause := rfl
@[simp] theorem State.setEntry_draws (s : State) (e : EntryId) (v : HoldEntry) :
    (s.setEntry e v).draws = s.draws := rfl
@[simp] theorem State.setEntry_pending (s : State) (e : EntryId) (v : HoldEntry) :
    (s.setEntry e v).pending = s.pending := rfl

@[simp] theorem State.setQueue_phase (s : State) (c : ClassId) (q : List EntryId) :
    (s.setQueue c q).phase = s.phase := rfl
@[simp] theorem State.setQueue_time (s : State) (c : ClassId) (q : List EntryId) :
    (s.setQueue c q).time = s.time := rfl
@[simp] theorem State.setQueue_intake (s : State) (c : ClassId) (q : List EntryId) :
    (s.setQueue c q).intake = s.intake := rfl
@[simp] theorem State.setQueue_map (s : State) (c : ClassId) (q : List EntryId) :
    (s.setQueue c q).map = s.map := rfl
@[simp] theorem State.setQueue_pool_entries (s : State) (c : ClassId) (q : List EntryId) :
    (s.setQueue c q).pool.entries = s.pool.entries := rfl
@[simp] theorem State.setQueue_pool_queues (s : State) (c : ClassId) (q : List EntryId) :
    (s.setQueue c q).pool.queues = s.pool.queues.set c q := rfl
@[simp] theorem State.setQueue_budget (s : State) (c : ClassId) (q : List EntryId) :
    (s.setQueue c q).budget = s.budget := rfl
@[simp] theorem State.setQueue_arbiter (s : State) (c : ClassId) (q : List EntryId) :
    (s.setQueue c q).arbiter = s.arbiter := rfl
@[simp] theorem State.setQueue_mem (s : State) (c : ClassId) (q : List EntryId) :
    (s.setQueue c q).mem = s.mem := rfl
@[simp] theorem State.setQueue_transit (s : State) (c : ClassId) (q : List EntryId) :
    (s.setQueue c q).transit = s.transit := rfl
@[simp] theorem State.setQueue_ret (s : State) (c : ClassId) (q : List EntryId) :
    (s.setQueue c q).ret = s.ret := rfl
@[simp] theorem State.setQueue_stats (s : State) (c : ClassId) (q : List EntryId) :
    (s.setQueue c q).stats = s.stats := rfl
@[simp] theorem State.setQueue_incidents (s : State) (c : ClassId) (q : List EntryId) :
    (s.setQueue c q).incidents = s.incidents := rfl
@[simp] theorem State.setQueue_alerts (s : State) (c : ClassId) (q : List EntryId) :
    (s.setQueue c q).alerts = s.alerts := rfl
@[simp] theorem State.setQueue_port (s : State) (c : ClassId) (q : List EntryId) :
    (s.setQueue c q).port = s.port := rfl
@[simp] theorem State.setQueue_cause (s : State) (c : ClassId) (q : List EntryId) :
    (s.setQueue c q).cause = s.cause := rfl
@[simp] theorem State.setQueue_draws (s : State) (c : ClassId) (q : List EntryId) :
    (s.setQueue c q).draws = s.draws := rfl
@[simp] theorem State.setQueue_pending (s : State) (c : ClassId) (q : List EntryId) :
    (s.setQueue c q).pending = s.pending := rfl

@[simp] theorem State.dropFromWaitLists_phase (s : State) (i : EntryId) :
    (s.dropFromWaitLists i).phase = s.phase := rfl
@[simp] theorem State.dropFromWaitLists_time (s : State) (i : EntryId) :
    (s.dropFromWaitLists i).time = s.time := rfl
@[simp] theorem State.dropFromWaitLists_intake (s : State) (i : EntryId) :
    (s.dropFromWaitLists i).intake = s.intake := rfl
@[simp] theorem State.dropFromWaitLists_map (s : State) (i : EntryId) :
    (s.dropFromWaitLists i).map = s.map := rfl
@[simp] theorem State.dropFromWaitLists_pool_entries (s : State) (i : EntryId) :
    (s.dropFromWaitLists i).pool.entries = s.pool.entries.map (HoldEntry.dropMember i) := rfl
@[simp] theorem State.dropFromWaitLists_pool_queues (s : State) (i : EntryId) :
    (s.dropFromWaitLists i).pool.queues = s.pool.queues := rfl
@[simp] theorem State.dropFromWaitLists_budget (s : State) (i : EntryId) :
    (s.dropFromWaitLists i).budget = s.budget := rfl
@[simp] theorem State.dropFromWaitLists_arbiter (s : State) (i : EntryId) :
    (s.dropFromWaitLists i).arbiter = s.arbiter := rfl
@[simp] theorem State.dropFromWaitLists_mem (s : State) (i : EntryId) :
    (s.dropFromWaitLists i).mem = s.mem := rfl
@[simp] theorem State.dropFromWaitLists_transit (s : State) (i : EntryId) :
    (s.dropFromWaitLists i).transit = s.transit := rfl
@[simp] theorem State.dropFromWaitLists_ret (s : State) (i : EntryId) :
    (s.dropFromWaitLists i).ret = s.ret := rfl
@[simp] theorem State.dropFromWaitLists_stats (s : State) (i : EntryId) :
    (s.dropFromWaitLists i).stats = s.stats := rfl
@[simp] theorem State.dropFromWaitLists_incidents (s : State) (i : EntryId) :
    (s.dropFromWaitLists i).incidents = s.incidents := rfl
@[simp] theorem State.dropFromWaitLists_alerts (s : State) (i : EntryId) :
    (s.dropFromWaitLists i).alerts = s.alerts := rfl
@[simp] theorem State.dropFromWaitLists_port (s : State) (i : EntryId) :
    (s.dropFromWaitLists i).port = s.port := rfl
@[simp] theorem State.dropFromWaitLists_cause (s : State) (i : EntryId) :
    (s.dropFromWaitLists i).cause = s.cause := rfl
@[simp] theorem State.dropFromWaitLists_draws (s : State) (i : EntryId) :
    (s.dropFromWaitLists i).draws = s.draws := rfl
@[simp] theorem State.dropFromWaitLists_pending (s : State) (i : EntryId) :
    (s.dropFromWaitLists i).pending = s.pending := rfl

@[simp] theorem State.setBudget_phase (s : State) (c : ClassId) (b : ClassBudget) :
    (s.setBudget c b).phase = s.phase := rfl
@[simp] theorem State.setBudget_time (s : State) (c : ClassId) (b : ClassBudget) :
    (s.setBudget c b).time = s.time := rfl
@[simp] theorem State.setBudget_intake (s : State) (c : ClassId) (b : ClassBudget) :
    (s.setBudget c b).intake = s.intake := rfl
@[simp] theorem State.setBudget_map (s : State) (c : ClassId) (b : ClassBudget) :
    (s.setBudget c b).map = s.map := rfl
@[simp] theorem State.setBudget_pool (s : State) (c : ClassId) (b : ClassBudget) :
    (s.setBudget c b).pool = s.pool := rfl
@[simp] theorem State.setBudget_budget (s : State) (c : ClassId) (b : ClassBudget) :
    (s.setBudget c b).budget = s.budget.set c b := rfl
@[simp] theorem State.setBudget_arbiter (s : State) (c : ClassId) (b : ClassBudget) :
    (s.setBudget c b).arbiter = s.arbiter := rfl
@[simp] theorem State.setBudget_mem (s : State) (c : ClassId) (b : ClassBudget) :
    (s.setBudget c b).mem = s.mem := rfl
@[simp] theorem State.setBudget_transit (s : State) (c : ClassId) (b : ClassBudget) :
    (s.setBudget c b).transit = s.transit := rfl
@[simp] theorem State.setBudget_ret (s : State) (c : ClassId) (b : ClassBudget) :
    (s.setBudget c b).ret = s.ret := rfl
@[simp] theorem State.setBudget_stats (s : State) (c : ClassId) (b : ClassBudget) :
    (s.setBudget c b).stats = s.stats := rfl
@[simp] theorem State.setBudget_incidents (s : State) (c : ClassId) (b : ClassBudget) :
    (s.setBudget c b).incidents = s.incidents := rfl
@[simp] theorem State.setBudget_alerts (s : State) (c : ClassId) (b : ClassBudget) :
    (s.setBudget c b).alerts = s.alerts := rfl
@[simp] theorem State.setBudget_port (s : State) (c : ClassId) (b : ClassBudget) :
    (s.setBudget c b).port = s.port := rfl
@[simp] theorem State.setBudget_cause (s : State) (c : ClassId) (b : ClassBudget) :
    (s.setBudget c b).cause = s.cause := rfl
@[simp] theorem State.setBudget_draws (s : State) (c : ClassId) (b : ClassBudget) :
    (s.setBudget c b).draws = s.draws := rfl
@[simp] theorem State.setBudget_pending (s : State) (c : ClassId) (b : ClassBudget) :
    (s.setBudget c b).pending = s.pending := rfl

@[simp] theorem State.setSlotState_phase (s : State) (k : SlotId) (v : SlotState) :
    (s.setSlotState k v).phase = s.phase := rfl
@[simp] theorem State.setSlotState_time (s : State) (k : SlotId) (v : SlotState) :
    (s.setSlotState k v).time = s.time := rfl
@[simp] theorem State.setSlotState_intake (s : State) (k : SlotId) (v : SlotState) :
    (s.setSlotState k v).intake = s.intake := rfl
@[simp] theorem State.setSlotState_map (s : State) (k : SlotId) (v : SlotState) :
    (s.setSlotState k v).map = s.map := rfl
@[simp] theorem State.setSlotState_pool (s : State) (k : SlotId) (v : SlotState) :
    (s.setSlotState k v).pool = s.pool := rfl
@[simp] theorem State.setSlotState_budget (s : State) (k : SlotId) (v : SlotState) :
    (s.setSlotState k v).budget = s.budget := rfl
@[simp] theorem State.setSlotState_arbiter (s : State) (k : SlotId) (v : SlotState) :
    (s.setSlotState k v).arbiter = s.arbiter := rfl
@[simp] theorem State.setSlotState_mem (s : State) (k : SlotId) (v : SlotState) :
    (s.setSlotState k v).mem = s.mem := rfl
@[simp] theorem State.setSlotState_transit_slots (s : State) (k : SlotId) (v : SlotState) :
    (s.setSlotState k v).transit.slots
      = s.transit.slots.set k { s.transit.slots[k] with state := v } := rfl
@[simp] theorem State.setSlotState_transit_order (s : State) (k : SlotId) (v : SlotState) :
    (s.setSlotState k v).transit.order = s.transit.order := rfl
@[simp] theorem State.setSlotState_ret (s : State) (k : SlotId) (v : SlotState) :
    (s.setSlotState k v).ret = s.ret := rfl
@[simp] theorem State.setSlotState_stats (s : State) (k : SlotId) (v : SlotState) :
    (s.setSlotState k v).stats = s.stats := rfl
@[simp] theorem State.setSlotState_incidents (s : State) (k : SlotId) (v : SlotState) :
    (s.setSlotState k v).incidents = s.incidents := rfl
@[simp] theorem State.setSlotState_alerts (s : State) (k : SlotId) (v : SlotState) :
    (s.setSlotState k v).alerts = s.alerts := rfl
@[simp] theorem State.setSlotState_port (s : State) (k : SlotId) (v : SlotState) :
    (s.setSlotState k v).port = s.port := rfl
@[simp] theorem State.setSlotState_cause (s : State) (k : SlotId) (v : SlotState) :
    (s.setSlotState k v).cause = s.cause := rfl
@[simp] theorem State.setSlotState_draws (s : State) (k : SlotId) (v : SlotState) :
    (s.setSlotState k v).draws = s.draws := rfl
@[simp] theorem State.setSlotState_pending (s : State) (k : SlotId) (v : SlotState) :
    (s.setSlotState k v).pending = s.pending := rfl

@[simp] theorem State.mapSlots_phase (s : State) (f : SlotState → SlotState) :
    (s.mapSlots f).phase = s.phase := rfl
@[simp] theorem State.mapSlots_time (s : State) (f : SlotState → SlotState) :
    (s.mapSlots f).time = s.time := rfl
@[simp] theorem State.mapSlots_intake (s : State) (f : SlotState → SlotState) :
    (s.mapSlots f).intake = s.intake := rfl
@[simp] theorem State.mapSlots_map (s : State) (f : SlotState → SlotState) :
    (s.mapSlots f).map = s.map := rfl
@[simp] theorem State.mapSlots_pool (s : State) (f : SlotState → SlotState) :
    (s.mapSlots f).pool = s.pool := rfl
@[simp] theorem State.mapSlots_budget (s : State) (f : SlotState → SlotState) :
    (s.mapSlots f).budget = s.budget := rfl
@[simp] theorem State.mapSlots_arbiter (s : State) (f : SlotState → SlotState) :
    (s.mapSlots f).arbiter = s.arbiter := rfl
@[simp] theorem State.mapSlots_mem (s : State) (f : SlotState → SlotState) :
    (s.mapSlots f).mem = s.mem := rfl
@[simp] theorem State.mapSlots_transit_slots (s : State) (f : SlotState → SlotState) :
    (s.mapSlots f).transit.slots = s.transit.slots.map (fun k => { k with state := f k.state }) := rfl
@[simp] theorem State.mapSlots_transit_order (s : State) (f : SlotState → SlotState) :
    (s.mapSlots f).transit.order = s.transit.order := rfl
@[simp] theorem State.mapSlots_ret (s : State) (f : SlotState → SlotState) :
    (s.mapSlots f).ret = s.ret := rfl
@[simp] theorem State.mapSlots_stats (s : State) (f : SlotState → SlotState) :
    (s.mapSlots f).stats = s.stats := rfl
@[simp] theorem State.mapSlots_incidents (s : State) (f : SlotState → SlotState) :
    (s.mapSlots f).incidents = s.incidents := rfl
@[simp] theorem State.mapSlots_alerts (s : State) (f : SlotState → SlotState) :
    (s.mapSlots f).alerts = s.alerts := rfl
@[simp] theorem State.mapSlots_port (s : State) (f : SlotState → SlotState) :
    (s.mapSlots f).port = s.port := rfl
@[simp] theorem State.mapSlots_cause (s : State) (f : SlotState → SlotState) :
    (s.mapSlots f).cause = s.cause := rfl
@[simp] theorem State.mapSlots_draws (s : State) (f : SlotState → SlotState) :
    (s.mapSlots f).draws = s.draws := rfl
@[simp] theorem State.mapSlots_pending (s : State) (f : SlotState → SlotState) :
    (s.mapSlots f).pending = s.pending := rfl

@[simp] theorem State.joinAnswers_phase (s : State) (owners : List Owner) :
    (s.joinAnswers owners).phase = s.phase := rfl
@[simp] theorem State.joinAnswers_time (s : State) (owners : List Owner) :
    (s.joinAnswers owners).time = s.time := rfl
@[simp] theorem State.joinAnswers_intake (s : State) (owners : List Owner) :
    (s.joinAnswers owners).intake = s.intake := rfl
@[simp] theorem State.joinAnswers_map (s : State) (owners : List Owner) :
    (s.joinAnswers owners).map = s.map := rfl
@[simp] theorem State.joinAnswers_pool (s : State) (owners : List Owner) :
    (s.joinAnswers owners).pool = s.pool := rfl
@[simp] theorem State.joinAnswers_budget (s : State) (owners : List Owner) :
    (s.joinAnswers owners).budget = s.budget := rfl
@[simp] theorem State.joinAnswers_arbiter (s : State) (owners : List Owner) :
    (s.joinAnswers owners).arbiter = s.arbiter := rfl
@[simp] theorem State.joinAnswers_mem (s : State) (owners : List Owner) :
    (s.joinAnswers owners).mem = s.mem := rfl
@[simp] theorem State.joinAnswers_transit (s : State) (owners : List Owner) :
    (s.joinAnswers owners).transit = s.transit := rfl
@[simp] theorem State.joinAnswers_ret_link (s : State) (owners : List Owner) :
    (s.joinAnswers owners).ret.link = s.ret.link := rfl
@[simp] theorem State.joinAnswers_ret_channel (s : State) (owners : List Owner) :
    (s.joinAnswers owners).ret.channel = s.ret.channel := rfl
@[simp] theorem State.joinAnswers_ret_register (s : State) (owners : List Owner) :
    (s.joinAnswers owners).ret.register = s.ret.register := rfl
@[simp] theorem State.joinAnswers_ret_answers (s : State) (owners : List Owner) :
    (s.joinAnswers owners).ret.answers = s.ret.answers ++ owners := rfl
@[simp] theorem State.joinAnswers_ret_turn (s : State) (owners : List Owner) :
    (s.joinAnswers owners).ret.turn = s.ret.turn := rfl
@[simp] theorem State.joinAnswers_stats (s : State) (owners : List Owner) :
    (s.joinAnswers owners).stats = s.stats := rfl
@[simp] theorem State.joinAnswers_incidents (s : State) (owners : List Owner) :
    (s.joinAnswers owners).incidents = s.incidents := rfl
@[simp] theorem State.joinAnswers_alerts (s : State) (owners : List Owner) :
    (s.joinAnswers owners).alerts = s.alerts := rfl
@[simp] theorem State.joinAnswers_port (s : State) (owners : List Owner) :
    (s.joinAnswers owners).port = s.port := rfl
@[simp] theorem State.joinAnswers_cause (s : State) (owners : List Owner) :
    (s.joinAnswers owners).cause = s.cause := rfl
@[simp] theorem State.joinAnswers_draws (s : State) (owners : List Owner) :
    (s.joinAnswers owners).draws = s.draws := rfl
@[simp] theorem State.joinAnswers_pending (s : State) (owners : List Owner) :
    (s.joinAnswers owners).pending = s.pending := rfl

@[simp] theorem State.setIntake_phase (s : State) (r : IntakeState) :
    (s.setIntake r).phase = s.phase := rfl
@[simp] theorem State.setIntake_time (s : State) (r : IntakeState) :
    (s.setIntake r).time = s.time := rfl
@[simp] theorem State.setIntake_intake_register (s : State) (r : IntakeState) :
    (s.setIntake r).intake.register = r := rfl
@[simp] theorem State.setIntake_intake_stallLimit (s : State) (r : IntakeState) :
    (s.setIntake r).intake.stallLimit = s.intake.stallLimit := rfl
@[simp] theorem State.setIntake_map (s : State) (r : IntakeState) : (s.setIntake r).map = s.map := rfl
@[simp] theorem State.setIntake_pool (s : State) (r : IntakeState) :
    (s.setIntake r).pool = s.pool := rfl
@[simp] theorem State.setIntake_budget (s : State) (r : IntakeState) :
    (s.setIntake r).budget = s.budget := rfl
@[simp] theorem State.setIntake_arbiter (s : State) (r : IntakeState) :
    (s.setIntake r).arbiter = s.arbiter := rfl
@[simp] theorem State.setIntake_mem (s : State) (r : IntakeState) : (s.setIntake r).mem = s.mem := rfl
@[simp] theorem State.setIntake_transit (s : State) (r : IntakeState) :
    (s.setIntake r).transit = s.transit := rfl
@[simp] theorem State.setIntake_ret (s : State) (r : IntakeState) : (s.setIntake r).ret = s.ret := rfl
@[simp] theorem State.setIntake_stats (s : State) (r : IntakeState) :
    (s.setIntake r).stats = s.stats := rfl
@[simp] theorem State.setIntake_incidents (s : State) (r : IntakeState) :
    (s.setIntake r).incidents = s.incidents := rfl
@[simp] theorem State.setIntake_alerts (s : State) (r : IntakeState) :
    (s.setIntake r).alerts = s.alerts := rfl
@[simp] theorem State.setIntake_port (s : State) (r : IntakeState) :
    (s.setIntake r).port = s.port := rfl
@[simp] theorem State.setIntake_cause (s : State) (r : IntakeState) :
    (s.setIntake r).cause = s.cause := rfl
@[simp] theorem State.setIntake_draws (s : State) (r : IntakeState) :
    (s.setIntake r).draws = s.draws := rfl
@[simp] theorem State.setIntake_pending (s : State) (r : IntakeState) :
    (s.setIntake r).pending = s.pending := rfl

@[simp] theorem State.countClass_phase (s : State) (c : ClassId) (k : ClassCounter) (n : Nat) :
    (s.countClass c k n).phase = s.phase := rfl
@[simp] theorem State.countClass_time (s : State) (c : ClassId) (k : ClassCounter) (n : Nat) :
    (s.countClass c k n).time = s.time := rfl
@[simp] theorem State.countClass_intake (s : State) (c : ClassId) (k : ClassCounter) (n : Nat) :
    (s.countClass c k n).intake = s.intake := rfl
@[simp] theorem State.countClass_map (s : State) (c : ClassId) (k : ClassCounter) (n : Nat) :
    (s.countClass c k n).map = s.map := rfl
@[simp] theorem State.countClass_pool (s : State) (c : ClassId) (k : ClassCounter) (n : Nat) :
    (s.countClass c k n).pool = s.pool := rfl
@[simp] theorem State.countClass_budget (s : State) (c : ClassId) (k : ClassCounter) (n : Nat) :
    (s.countClass c k n).budget = s.budget := rfl
@[simp] theorem State.countClass_arbiter (s : State) (c : ClassId) (k : ClassCounter) (n : Nat) :
    (s.countClass c k n).arbiter = s.arbiter := rfl
@[simp] theorem State.countClass_mem (s : State) (c : ClassId) (k : ClassCounter) (n : Nat) :
    (s.countClass c k n).mem = s.mem := rfl
@[simp] theorem State.countClass_transit (s : State) (c : ClassId) (k : ClassCounter) (n : Nat) :
    (s.countClass c k n).transit = s.transit := rfl
@[simp] theorem State.countClass_ret (s : State) (c : ClassId) (k : ClassCounter) (n : Nat) :
    (s.countClass c k n).ret = s.ret := rfl
@[simp] theorem State.countClass_stats_live (s : State) (c : ClassId) (k : ClassCounter) (n : Nat) :
    (s.countClass c k n).stats.live = s.stats.live.set c (s.stats.live[c].bump k n) := rfl
@[simp] theorem State.countClass_stats_globals (s : State) (c : ClassId) (k : ClassCounter)
    (n : Nat) :
    (s.countClass c k n).stats.globals = s.stats.globals := rfl
@[simp] theorem State.countClass_stats_bank (s : State) (c : ClassId) (k : ClassCounter) (n : Nat) :
    (s.countClass c k n).stats.bank = s.stats.bank := rfl
@[simp] theorem State.countClass_stats_intervalStart (s : State) (c : ClassId)
    (k : ClassCounter) (n : Nat) :
    (s.countClass c k n).stats.intervalStart = s.stats.intervalStart := rfl
@[simp] theorem State.countClass_stats_boundaries (s : State) (c : ClassId) (k : ClassCounter)
    (n : Nat) :
    (s.countClass c k n).stats.boundaries = s.stats.boundaries := rfl
@[simp] theorem State.countClass_stats_autoInterval (s : State) (c : ClassId) (k : ClassCounter)
    (n : Nat) :
    (s.countClass c k n).stats.autoInterval = s.stats.autoInterval := rfl
@[simp] theorem State.countClass_stats_timerStart (s : State) (c : ClassId) (k : ClassCounter)
    (n : Nat) :
    (s.countClass c k n).stats.timerStart = s.stats.timerStart := rfl
@[simp] theorem State.countClass_incidents (s : State) (c : ClassId) (k : ClassCounter) (n : Nat) :
    (s.countClass c k n).incidents = s.incidents := rfl
@[simp] theorem State.countClass_alerts_snapshot (s : State) (c : ClassId) (k : ClassCounter)
    (n : Nat) :
    (s.countClass c k n).alerts.snapshot = s.alerts.snapshot := rfl
@[simp] theorem State.countClass_alerts_quiesce (s : State) (c : ClassId) (k : ClassCounter)
    (n : Nat) :
    (s.countClass c k n).alerts.quiesce = s.alerts.quiesce := rfl
@[simp] theorem State.countClass_alerts_saturation (s : State) (c : ClassId) (k : ClassCounter)
    (n : Nat) :
    (s.countClass c k n).alerts.saturation
      = (s.alerts.saturation || saturates (s.stats.live[c].get k) n) := rfl
@[simp] theorem State.countClass_alerts_enables (s : State) (c : ClassId) (k : ClassCounter)
    (n : Nat) :
    (s.countClass c k n).alerts.enables = s.alerts.enables := rfl
@[simp] theorem State.countClass_port (s : State) (c : ClassId) (k : ClassCounter) (n : Nat) :
    (s.countClass c k n).port = s.port := rfl
@[simp] theorem State.countClass_cause (s : State) (c : ClassId) (k : ClassCounter) (n : Nat) :
    (s.countClass c k n).cause = s.cause := rfl
@[simp] theorem State.countClass_draws (s : State) (c : ClassId) (k : ClassCounter) (n : Nat) :
    (s.countClass c k n).draws = s.draws := rfl
@[simp] theorem State.countClass_pending (s : State) (c : ClassId) (k : ClassCounter) (n : Nat) :
    (s.countClass c k n).pending = s.pending := rfl

@[simp] theorem State.countGlobal_phase (s : State) (k : GlobalCounter) (n : Nat) :
    (s.countGlobal k n).phase = s.phase := rfl
@[simp] theorem State.countGlobal_time (s : State) (k : GlobalCounter) (n : Nat) :
    (s.countGlobal k n).time = s.time := rfl
@[simp] theorem State.countGlobal_intake (s : State) (k : GlobalCounter) (n : Nat) :
    (s.countGlobal k n).intake = s.intake := rfl
@[simp] theorem State.countGlobal_map (s : State) (k : GlobalCounter) (n : Nat) :
    (s.countGlobal k n).map = s.map := rfl
@[simp] theorem State.countGlobal_pool (s : State) (k : GlobalCounter) (n : Nat) :
    (s.countGlobal k n).pool = s.pool := rfl
@[simp] theorem State.countGlobal_budget (s : State) (k : GlobalCounter) (n : Nat) :
    (s.countGlobal k n).budget = s.budget := rfl
@[simp] theorem State.countGlobal_arbiter (s : State) (k : GlobalCounter) (n : Nat) :
    (s.countGlobal k n).arbiter = s.arbiter := rfl
@[simp] theorem State.countGlobal_mem (s : State) (k : GlobalCounter) (n : Nat) :
    (s.countGlobal k n).mem = s.mem := rfl
@[simp] theorem State.countGlobal_transit (s : State) (k : GlobalCounter) (n : Nat) :
    (s.countGlobal k n).transit = s.transit := rfl
@[simp] theorem State.countGlobal_ret (s : State) (k : GlobalCounter) (n : Nat) :
    (s.countGlobal k n).ret = s.ret := rfl
@[simp] theorem State.countGlobal_stats_live (s : State) (k : GlobalCounter) (n : Nat) :
    (s.countGlobal k n).stats.live = s.stats.live := rfl
@[simp] theorem State.countGlobal_stats_globals (s : State) (k : GlobalCounter) (n : Nat) :
    (s.countGlobal k n).stats.globals = s.stats.globals.bump k n := rfl
@[simp] theorem State.countGlobal_stats_bank (s : State) (k : GlobalCounter) (n : Nat) :
    (s.countGlobal k n).stats.bank = s.stats.bank := rfl
@[simp] theorem State.countGlobal_stats_intervalStart (s : State) (k : GlobalCounter) (n : Nat) :
    (s.countGlobal k n).stats.intervalStart = s.stats.intervalStart := rfl
@[simp] theorem State.countGlobal_stats_boundaries (s : State) (k : GlobalCounter) (n : Nat) :
    (s.countGlobal k n).stats.boundaries = s.stats.boundaries := rfl
@[simp] theorem State.countGlobal_stats_autoInterval (s : State) (k : GlobalCounter) (n : Nat) :
    (s.countGlobal k n).stats.autoInterval = s.stats.autoInterval := rfl
@[simp] theorem State.countGlobal_stats_timerStart (s : State) (k : GlobalCounter) (n : Nat) :
    (s.countGlobal k n).stats.timerStart = s.stats.timerStart := rfl
@[simp] theorem State.countGlobal_incidents (s : State) (k : GlobalCounter) (n : Nat) :
    (s.countGlobal k n).incidents = s.incidents := rfl
@[simp] theorem State.countGlobal_alerts_snapshot (s : State) (k : GlobalCounter) (n : Nat) :
    (s.countGlobal k n).alerts.snapshot = s.alerts.snapshot := rfl
@[simp] theorem State.countGlobal_alerts_quiesce (s : State) (k : GlobalCounter) (n : Nat) :
    (s.countGlobal k n).alerts.quiesce = s.alerts.quiesce := rfl
@[simp] theorem State.countGlobal_alerts_saturation (s : State) (k : GlobalCounter) (n : Nat) :
    (s.countGlobal k n).alerts.saturation
      = (s.alerts.saturation || saturates (s.stats.globals.get k) n) := rfl
@[simp] theorem State.countGlobal_alerts_enables (s : State) (k : GlobalCounter) (n : Nat) :
    (s.countGlobal k n).alerts.enables = s.alerts.enables := rfl
@[simp] theorem State.countGlobal_port (s : State) (k : GlobalCounter) (n : Nat) :
    (s.countGlobal k n).port = s.port := rfl
@[simp] theorem State.countGlobal_cause (s : State) (k : GlobalCounter) (n : Nat) :
    (s.countGlobal k n).cause = s.cause := rfl
@[simp] theorem State.countGlobal_draws (s : State) (k : GlobalCounter) (n : Nat) :
    (s.countGlobal k n).draws = s.draws := rfl
@[simp] theorem State.countGlobal_pending (s : State) (k : GlobalCounter) (n : Nat) :
    (s.countGlobal k n).pending = s.pending := rfl

@[simp] theorem State.offerHold_phase (s : State) (c : ClassId) (t : Time) :
    (s.offerHold c t).phase = s.phase := rfl
@[simp] theorem State.offerHold_time (s : State) (c : ClassId) (t : Time) :
    (s.offerHold c t).time = s.time := rfl
@[simp] theorem State.offerHold_intake (s : State) (c : ClassId) (t : Time) :
    (s.offerHold c t).intake = s.intake := rfl
@[simp] theorem State.offerHold_map (s : State) (c : ClassId) (t : Time) :
    (s.offerHold c t).map = s.map := rfl
@[simp] theorem State.offerHold_pool (s : State) (c : ClassId) (t : Time) :
    (s.offerHold c t).pool = s.pool := rfl
@[simp] theorem State.offerHold_budget (s : State) (c : ClassId) (t : Time) :
    (s.offerHold c t).budget = s.budget := rfl
@[simp] theorem State.offerHold_arbiter (s : State) (c : ClassId) (t : Time) :
    (s.offerHold c t).arbiter = s.arbiter := rfl
@[simp] theorem State.offerHold_mem (s : State) (c : ClassId) (t : Time) :
    (s.offerHold c t).mem = s.mem := rfl
@[simp] theorem State.offerHold_transit (s : State) (c : ClassId) (t : Time) :
    (s.offerHold c t).transit = s.transit := rfl
@[simp] theorem State.offerHold_ret (s : State) (c : ClassId) (t : Time) :
    (s.offerHold c t).ret = s.ret := rfl
@[simp] theorem State.offerHold_stats_live (s : State) (c : ClassId) (t : Time) :
    (s.offerHold c t).stats.live = s.stats.live.set c
      { s.stats.live[c] with maxHold := maxTime s.stats.live[c].maxHold t } := rfl
@[simp] theorem State.offerHold_stats_globals (s : State) (c : ClassId) (t : Time) :
    (s.offerHold c t).stats.globals = s.stats.globals := rfl
@[simp] theorem State.offerHold_stats_bank (s : State) (c : ClassId) (t : Time) :
    (s.offerHold c t).stats.bank = s.stats.bank := rfl
@[simp] theorem State.offerHold_stats_intervalStart (s : State) (c : ClassId) (t : Time) :
    (s.offerHold c t).stats.intervalStart = s.stats.intervalStart := rfl
@[simp] theorem State.offerHold_stats_boundaries (s : State) (c : ClassId) (t : Time) :
    (s.offerHold c t).stats.boundaries = s.stats.boundaries := rfl
@[simp] theorem State.offerHold_stats_autoInterval (s : State) (c : ClassId) (t : Time) :
    (s.offerHold c t).stats.autoInterval = s.stats.autoInterval := rfl
@[simp] theorem State.offerHold_stats_timerStart (s : State) (c : ClassId) (t : Time) :
    (s.offerHold c t).stats.timerStart = s.stats.timerStart := rfl
@[simp] theorem State.offerHold_incidents (s : State) (c : ClassId) (t : Time) :
    (s.offerHold c t).incidents = s.incidents := rfl
@[simp] theorem State.offerHold_alerts (s : State) (c : ClassId) (t : Time) :
    (s.offerHold c t).alerts = s.alerts := rfl
@[simp] theorem State.offerHold_port (s : State) (c : ClassId) (t : Time) :
    (s.offerHold c t).port = s.port := rfl
@[simp] theorem State.offerHold_cause (s : State) (c : ClassId) (t : Time) :
    (s.offerHold c t).cause = s.cause := rfl
@[simp] theorem State.offerHold_draws (s : State) (c : ClassId) (t : Time) :
    (s.offerHold c t).draws = s.draws := rfl
@[simp] theorem State.offerHold_pending (s : State) (c : ClassId) (t : Time) :
    (s.offerHold c t).pending = s.pending := rfl

@[simp] theorem State.offerMemory_phase (s : State) (c : ClassId) (t : Time) :
    (s.offerMemory c t).phase = s.phase := rfl
@[simp] theorem State.offerMemory_time (s : State) (c : ClassId) (t : Time) :
    (s.offerMemory c t).time = s.time := rfl
@[simp] theorem State.offerMemory_intake (s : State) (c : ClassId) (t : Time) :
    (s.offerMemory c t).intake = s.intake := rfl
@[simp] theorem State.offerMemory_map (s : State) (c : ClassId) (t : Time) :
    (s.offerMemory c t).map = s.map := rfl
@[simp] theorem State.offerMemory_pool (s : State) (c : ClassId) (t : Time) :
    (s.offerMemory c t).pool = s.pool := rfl
@[simp] theorem State.offerMemory_budget (s : State) (c : ClassId) (t : Time) :
    (s.offerMemory c t).budget = s.budget := rfl
@[simp] theorem State.offerMemory_arbiter (s : State) (c : ClassId) (t : Time) :
    (s.offerMemory c t).arbiter = s.arbiter := rfl
@[simp] theorem State.offerMemory_mem (s : State) (c : ClassId) (t : Time) :
    (s.offerMemory c t).mem = s.mem := rfl
@[simp] theorem State.offerMemory_transit (s : State) (c : ClassId) (t : Time) :
    (s.offerMemory c t).transit = s.transit := rfl
@[simp] theorem State.offerMemory_ret (s : State) (c : ClassId) (t : Time) :
    (s.offerMemory c t).ret = s.ret := rfl
@[simp] theorem State.offerMemory_stats_live (s : State) (c : ClassId) (t : Time) :
    (s.offerMemory c t).stats.live = s.stats.live.set c
      { s.stats.live[c] with maxMemory := maxTime s.stats.live[c].maxMemory t } := rfl
@[simp] theorem State.offerMemory_stats_globals (s : State) (c : ClassId) (t : Time) :
    (s.offerMemory c t).stats.globals = s.stats.globals := rfl
@[simp] theorem State.offerMemory_stats_bank (s : State) (c : ClassId) (t : Time) :
    (s.offerMemory c t).stats.bank = s.stats.bank := rfl
@[simp] theorem State.offerMemory_stats_intervalStart (s : State) (c : ClassId) (t : Time) :
    (s.offerMemory c t).stats.intervalStart = s.stats.intervalStart := rfl
@[simp] theorem State.offerMemory_stats_boundaries (s : State) (c : ClassId) (t : Time) :
    (s.offerMemory c t).stats.boundaries = s.stats.boundaries := rfl
@[simp] theorem State.offerMemory_stats_autoInterval (s : State) (c : ClassId) (t : Time) :
    (s.offerMemory c t).stats.autoInterval = s.stats.autoInterval := rfl
@[simp] theorem State.offerMemory_stats_timerStart (s : State) (c : ClassId) (t : Time) :
    (s.offerMemory c t).stats.timerStart = s.stats.timerStart := rfl
@[simp] theorem State.offerMemory_incidents (s : State) (c : ClassId) (t : Time) :
    (s.offerMemory c t).incidents = s.incidents := rfl
@[simp] theorem State.offerMemory_alerts (s : State) (c : ClassId) (t : Time) :
    (s.offerMemory c t).alerts = s.alerts := rfl
@[simp] theorem State.offerMemory_port (s : State) (c : ClassId) (t : Time) :
    (s.offerMemory c t).port = s.port := rfl
@[simp] theorem State.offerMemory_cause (s : State) (c : ClassId) (t : Time) :
    (s.offerMemory c t).cause = s.cause := rfl
@[simp] theorem State.offerMemory_draws (s : State) (c : ClassId) (t : Time) :
    (s.offerMemory c t).draws = s.draws := rfl
@[simp] theorem State.offerMemory_pending (s : State) (c : ClassId) (t : Time) :
    (s.offerMemory c t).pending = s.pending := rfl

@[simp] theorem State.raise_phase (s : State) (b : IncidentBody) : (s.raise b).phase = s.phase := by
  unfold State.raise; split <;> rfl
@[simp] theorem State.raise_time (s : State) (b : IncidentBody) : (s.raise b).time = s.time := by
  unfold State.raise; split <;> rfl
@[simp] theorem State.raise_intake (s : State) (b : IncidentBody) : (s.raise b).intake = s.intake := by
  unfold State.raise; split <;> rfl
@[simp] theorem State.raise_map (s : State) (b : IncidentBody) : (s.raise b).map = s.map := by
  unfold State.raise; split <;> rfl
@[simp] theorem State.raise_pool (s : State) (b : IncidentBody) : (s.raise b).pool = s.pool := by
  unfold State.raise; split <;> rfl
@[simp] theorem State.raise_budget (s : State) (b : IncidentBody) : (s.raise b).budget = s.budget := by
  unfold State.raise; split <;> rfl
@[simp] theorem State.raise_arbiter (s : State) (b : IncidentBody) :
    (s.raise b).arbiter = s.arbiter := by
  unfold State.raise; split <;> rfl
@[simp] theorem State.raise_mem (s : State) (b : IncidentBody) : (s.raise b).mem = s.mem := by
  unfold State.raise; split <;> rfl
@[simp] theorem State.raise_transit (s : State) (b : IncidentBody) :
    (s.raise b).transit = s.transit := by
  unfold State.raise; split <;> rfl
@[simp] theorem State.raise_ret (s : State) (b : IncidentBody) : (s.raise b).ret = s.ret := by
  unfold State.raise; split <;> rfl
@[simp] theorem State.raise_stats (s : State) (b : IncidentBody) : (s.raise b).stats = s.stats := by
  unfold State.raise; split <;> rfl
@[simp] theorem State.raise_incidents_sequence (s : State) (b : IncidentBody) :
    (s.raise b).incidents.sequence = s.incidents.sequence + 1 := by
  unfold State.raise; split <;> rfl
@[simp] theorem State.raise_incidents_headMark (s : State) (b : IncidentBody) :
    (s.raise b).incidents.headMark = s.incidents.headMark := by
  unfold State.raise; split <;> rfl
@[simp] theorem State.raise_alerts (s : State) (b : IncidentBody) : (s.raise b).alerts = s.alerts := by
  unfold State.raise; split <;> rfl
@[simp] theorem State.raise_port (s : State) (b : IncidentBody) : (s.raise b).port = s.port := by
  unfold State.raise; split <;> rfl
@[simp] theorem State.raise_cause (s : State) (b : IncidentBody) : (s.raise b).cause = s.cause := by
  unfold State.raise; split <;> rfl
@[simp] theorem State.raise_draws (s : State) (b : IncidentBody) : (s.raise b).draws = s.draws := by
  unfold State.raise; split <;> rfl
@[simp] theorem State.raise_pending (s : State) (b : IncidentBody) :
    (s.raise b).pending = s.pending := by
  unfold State.raise; split <;> rfl

@[simp] theorem State.setStatus_phase (s : State) (code argument : Byte) (v : CommandState)
    (r : Reason) (d : BitVec 16) :
    (s.setStatus code argument v r d).phase = s.phase := rfl
@[simp] theorem State.setStatus_time (s : State) (code argument : Byte) (v : CommandState)
    (r : Reason) (d : BitVec 16) :
    (s.setStatus code argument v r d).time = s.time := rfl
@[simp] theorem State.setStatus_intake (s : State) (code argument : Byte) (v : CommandState)
    (r : Reason) (d : BitVec 16) :
    (s.setStatus code argument v r d).intake = s.intake := rfl
@[simp] theorem State.setStatus_map (s : State) (code argument : Byte) (v : CommandState)
    (r : Reason) (d : BitVec 16) :
    (s.setStatus code argument v r d).map = s.map := rfl
@[simp] theorem State.setStatus_pool (s : State) (code argument : Byte) (v : CommandState)
    (r : Reason) (d : BitVec 16) :
    (s.setStatus code argument v r d).pool = s.pool := rfl
@[simp] theorem State.setStatus_budget (s : State) (code argument : Byte) (v : CommandState)
    (r : Reason) (d : BitVec 16) :
    (s.setStatus code argument v r d).budget = s.budget := rfl
@[simp] theorem State.setStatus_arbiter (s : State) (code argument : Byte) (v : CommandState)
    (r : Reason) (d : BitVec 16) :
    (s.setStatus code argument v r d).arbiter = s.arbiter := rfl
@[simp] theorem State.setStatus_mem (s : State) (code argument : Byte) (v : CommandState)
    (r : Reason) (d : BitVec 16) :
    (s.setStatus code argument v r d).mem = s.mem := rfl
@[simp] theorem State.setStatus_transit (s : State) (code argument : Byte) (v : CommandState)
    (r : Reason) (d : BitVec 16) :
    (s.setStatus code argument v r d).transit = s.transit := rfl
@[simp] theorem State.setStatus_ret (s : State) (code argument : Byte) (v : CommandState)
    (r : Reason) (d : BitVec 16) :
    (s.setStatus code argument v r d).ret = s.ret := rfl
@[simp] theorem State.setStatus_stats (s : State) (code argument : Byte) (v : CommandState)
    (r : Reason) (d : BitVec 16) :
    (s.setStatus code argument v r d).stats = s.stats := rfl
@[simp] theorem State.setStatus_incidents (s : State) (code argument : Byte) (v : CommandState)
    (r : Reason) (d : BitVec 16) :
    (s.setStatus code argument v r d).incidents = s.incidents := rfl
@[simp] theorem State.setStatus_alerts (s : State) (code argument : Byte) (v : CommandState)
    (r : Reason) (d : BitVec 16) :
    (s.setStatus code argument v r d).alerts = s.alerts := rfl
@[simp] theorem State.setStatus_port_straps (s : State) (code argument : Byte)
    (v : CommandState) (r : Reason) (d : BitVec 16) :
    (s.setStatus code argument v r d).port.straps = s.port.straps := rfl
@[simp] theorem State.setStatus_port_bus (s : State) (code argument : Byte) (v : CommandState)
    (r : Reason) (d : BitVec 16) :
    (s.setStatus code argument v r d).port.bus = s.port.bus := rfl
@[simp] theorem State.setStatus_port_ack (s : State) (code argument : Byte) (v : CommandState)
    (r : Reason) (d : BitVec 16) :
    (s.setStatus code argument v r d).port.ack = s.port.ack := rfl
@[simp] theorem State.setStatus_port_sent (s : State) (code argument : Byte) (v : CommandState)
    (r : Reason) (d : BitVec 16) :
    (s.setStatus code argument v r d).port.sent = s.port.sent := rfl
@[simp] theorem State.setStatus_port_offset (s : State) (code argument : Byte)
    (v : CommandState) (r : Reason) (d : BitVec 16) :
    (s.setStatus code argument v r d).port.offset = s.port.offset := rfl
@[simp] theorem State.setStatus_port_latch (s : State) (code argument : Byte) (v : CommandState)
    (r : Reason) (d : BitVec 16) :
    (s.setStatus code argument v r d).port.latch = s.port.latch := rfl
@[simp] theorem State.setStatus_port_assembly (s : State) (code argument : Byte)
    (v : CommandState) (r : Reason) (d : BitVec 16) :
    (s.setStatus code argument v r d).port.assembly = s.port.assembly := rfl
@[simp] theorem State.setStatus_port_commandCode (s : State) (code argument : Byte)
    (v : CommandState) (r : Reason) (d : BitVec 16) :
    (s.setStatus code argument v r d).port.commandCode = s.port.commandCode := rfl
@[simp] theorem State.setStatus_port_commandArgument (s : State) (code argument : Byte)
    (v : CommandState) (r : Reason) (d : BitVec 16) :
    (s.setStatus code argument v r d).port.commandArgument = s.port.commandArgument := rfl
@[simp] theorem State.setStatus_port_status (s : State) (code argument : Byte)
    (v : CommandState) (r : Reason) (d : BitVec 16) :
    (s.setStatus code argument v r d).port.status = ⟨v, code, argument, r, d, 0, 0⟩ := rfl
@[simp] theorem State.setStatus_cause (s : State) (code argument : Byte) (v : CommandState)
    (r : Reason) (d : BitVec 16) :
    (s.setStatus code argument v r d).cause = s.cause := rfl
@[simp] theorem State.setStatus_draws (s : State) (code argument : Byte) (v : CommandState)
    (r : Reason) (d : BitVec 16) :
    (s.setStatus code argument v r d).draws = s.draws := rfl
@[simp] theorem State.setStatus_pending (s : State) (code argument : Byte) (v : CommandState)
    (r : Reason) (d : BitVec 16) :
    (s.setStatus code argument v r d).pending = s.pending := rfl

@[simp] theorem State.refuseBusy_phase (s : State) (code : Byte) :
    (s.refuseBusy code).phase = s.phase := rfl
@[simp] theorem State.refuseBusy_time (s : State) (code : Byte) :
    (s.refuseBusy code).time = s.time := rfl
@[simp] theorem State.refuseBusy_intake (s : State) (code : Byte) :
    (s.refuseBusy code).intake = s.intake := rfl
@[simp] theorem State.refuseBusy_map (s : State) (code : Byte) : (s.refuseBusy code).map = s.map :=
  rfl
@[simp] theorem State.refuseBusy_pool (s : State) (code : Byte) :
    (s.refuseBusy code).pool = s.pool := rfl
@[simp] theorem State.refuseBusy_budget (s : State) (code : Byte) :
    (s.refuseBusy code).budget = s.budget := rfl
@[simp] theorem State.refuseBusy_arbiter (s : State) (code : Byte) :
    (s.refuseBusy code).arbiter = s.arbiter := rfl
@[simp] theorem State.refuseBusy_mem (s : State) (code : Byte) : (s.refuseBusy code).mem = s.mem :=
  rfl
@[simp] theorem State.refuseBusy_transit (s : State) (code : Byte) :
    (s.refuseBusy code).transit = s.transit := rfl
@[simp] theorem State.refuseBusy_ret (s : State) (code : Byte) : (s.refuseBusy code).ret = s.ret :=
  rfl
@[simp] theorem State.refuseBusy_stats (s : State) (code : Byte) :
    (s.refuseBusy code).stats = s.stats := rfl
@[simp] theorem State.refuseBusy_incidents (s : State) (code : Byte) :
    (s.refuseBusy code).incidents = s.incidents := rfl
@[simp] theorem State.refuseBusy_alerts (s : State) (code : Byte) :
    (s.refuseBusy code).alerts = s.alerts := rfl
@[simp] theorem State.refuseBusy_port_straps (s : State) (code : Byte) :
    (s.refuseBusy code).port.straps = s.port.straps := rfl
@[simp] theorem State.refuseBusy_port_bus (s : State) (code : Byte) :
    (s.refuseBusy code).port.bus = s.port.bus := rfl
@[simp] theorem State.refuseBusy_port_ack (s : State) (code : Byte) :
    (s.refuseBusy code).port.ack = s.port.ack := rfl
@[simp] theorem State.refuseBusy_port_sent (s : State) (code : Byte) :
    (s.refuseBusy code).port.sent = s.port.sent := rfl
@[simp] theorem State.refuseBusy_port_offset (s : State) (code : Byte) :
    (s.refuseBusy code).port.offset = s.port.offset := rfl
@[simp] theorem State.refuseBusy_port_latch (s : State) (code : Byte) :
    (s.refuseBusy code).port.latch = s.port.latch := rfl
@[simp] theorem State.refuseBusy_port_assembly (s : State) (code : Byte) :
    (s.refuseBusy code).port.assembly = s.port.assembly := rfl
@[simp] theorem State.refuseBusy_port_commandCode (s : State) (code : Byte) :
    (s.refuseBusy code).port.commandCode = s.port.commandCode := rfl
@[simp] theorem State.refuseBusy_port_commandArgument (s : State) (code : Byte) :
    (s.refuseBusy code).port.commandArgument = s.port.commandArgument := rfl
@[simp] theorem State.refuseBusy_cause (s : State) (code : Byte) :
    (s.refuseBusy code).cause = s.cause := rfl
@[simp] theorem State.refuseBusy_draws (s : State) (code : Byte) :
    (s.refuseBusy code).draws = s.draws := rfl
@[simp] theorem State.refuseBusy_pending (s : State) (code : Byte) :
    (s.refuseBusy code).pending = s.pending := rfl

@[simp] theorem State.refuseFree_phase (s : State) (code argument : Byte) (r : Reason) :
    (s.refuseFree code argument r).phase = s.phase := rfl
@[simp] theorem State.refuseFree_time (s : State) (code argument : Byte) (r : Reason) :
    (s.refuseFree code argument r).time = s.time := rfl
@[simp] theorem State.refuseFree_intake (s : State) (code argument : Byte) (r : Reason) :
    (s.refuseFree code argument r).intake = s.intake := rfl
@[simp] theorem State.refuseFree_map (s : State) (code argument : Byte) (r : Reason) :
    (s.refuseFree code argument r).map = s.map := rfl
@[simp] theorem State.refuseFree_pool (s : State) (code argument : Byte) (r : Reason) :
    (s.refuseFree code argument r).pool = s.pool := rfl
@[simp] theorem State.refuseFree_budget (s : State) (code argument : Byte) (r : Reason) :
    (s.refuseFree code argument r).budget = s.budget := rfl
@[simp] theorem State.refuseFree_arbiter (s : State) (code argument : Byte) (r : Reason) :
    (s.refuseFree code argument r).arbiter = s.arbiter := rfl
@[simp] theorem State.refuseFree_mem (s : State) (code argument : Byte) (r : Reason) :
    (s.refuseFree code argument r).mem = s.mem := rfl
@[simp] theorem State.refuseFree_transit (s : State) (code argument : Byte) (r : Reason) :
    (s.refuseFree code argument r).transit = s.transit := rfl
@[simp] theorem State.refuseFree_ret (s : State) (code argument : Byte) (r : Reason) :
    (s.refuseFree code argument r).ret = s.ret := rfl
@[simp] theorem State.refuseFree_stats (s : State) (code argument : Byte) (r : Reason) :
    (s.refuseFree code argument r).stats = s.stats := rfl
@[simp] theorem State.refuseFree_incidents (s : State) (code argument : Byte) (r : Reason) :
    (s.refuseFree code argument r).incidents = s.incidents := rfl
@[simp] theorem State.refuseFree_alerts (s : State) (code argument : Byte) (r : Reason) :
    (s.refuseFree code argument r).alerts = s.alerts := rfl
@[simp] theorem State.refuseFree_port_straps (s : State) (code argument : Byte) (r : Reason) :
    (s.refuseFree code argument r).port.straps = s.port.straps := rfl
@[simp] theorem State.refuseFree_port_bus (s : State) (code argument : Byte) (r : Reason) :
    (s.refuseFree code argument r).port.bus = s.port.bus := rfl
@[simp] theorem State.refuseFree_port_ack (s : State) (code argument : Byte) (r : Reason) :
    (s.refuseFree code argument r).port.ack = s.port.ack := rfl
@[simp] theorem State.refuseFree_port_sent (s : State) (code argument : Byte) (r : Reason) :
    (s.refuseFree code argument r).port.sent = s.port.sent := rfl
@[simp] theorem State.refuseFree_port_offset (s : State) (code argument : Byte) (r : Reason) :
    (s.refuseFree code argument r).port.offset = s.port.offset := rfl
@[simp] theorem State.refuseFree_port_latch (s : State) (code argument : Byte) (r : Reason) :
    (s.refuseFree code argument r).port.latch = s.port.latch := rfl
@[simp] theorem State.refuseFree_port_assembly (s : State) (code argument : Byte) (r : Reason) :
    (s.refuseFree code argument r).port.assembly = s.port.assembly := rfl
@[simp] theorem State.refuseFree_port_commandCode (s : State) (code argument : Byte) (r : Reason) :
    (s.refuseFree code argument r).port.commandCode = s.port.commandCode := rfl
@[simp] theorem State.refuseFree_port_commandArgument (s : State) (code argument : Byte)
    (r : Reason) :
    (s.refuseFree code argument r).port.commandArgument = s.port.commandArgument := rfl
@[simp] theorem State.refuseFree_port_status (s : State) (code argument : Byte) (r : Reason) :
    (s.refuseFree code argument r).port.status
      = ⟨.refused, code, argument, r, Config.unstatedDetail s.draws, 0, 0⟩ := rfl
@[simp] theorem State.refuseFree_cause (s : State) (code argument : Byte) (r : Reason) :
    (s.refuseFree code argument r).cause = s.cause := rfl
@[simp] theorem State.refuseFree_draws (s : State) (code argument : Byte) (r : Reason) :
    (s.refuseFree code argument r).draws = s.draws + 1 := rfl
@[simp] theorem State.refuseFree_pending (s : State) (code argument : Byte) (r : Reason) :
    (s.refuseFree code argument r).pending = s.pending := rfl

@[simp] theorem State.zeroLive_phase (s : State) : s.zeroLive.phase = s.phase := rfl
@[simp] theorem State.zeroLive_time (s : State) : s.zeroLive.time = s.time := rfl
@[simp] theorem State.zeroLive_intake (s : State) : s.zeroLive.intake = s.intake := rfl
@[simp] theorem State.zeroLive_map (s : State) : s.zeroLive.map = s.map := rfl
@[simp] theorem State.zeroLive_pool (s : State) : s.zeroLive.pool = s.pool := rfl
@[simp] theorem State.zeroLive_budget (s : State) : s.zeroLive.budget = s.budget := rfl
@[simp] theorem State.zeroLive_arbiter (s : State) : s.zeroLive.arbiter = s.arbiter := rfl
@[simp] theorem State.zeroLive_mem (s : State) : s.zeroLive.mem = s.mem := rfl
@[simp] theorem State.zeroLive_transit (s : State) : s.zeroLive.transit = s.transit := rfl
@[simp] theorem State.zeroLive_ret (s : State) : s.zeroLive.ret = s.ret := rfl
@[simp] theorem State.zeroLive_stats_live (s : State) :
    s.zeroLive.stats.live = Vector.replicate 16 ClassStats.zero := rfl
@[simp] theorem State.zeroLive_stats_globals (s : State) :
    s.zeroLive.stats.globals = GlobalStats.zero := rfl
@[simp] theorem State.zeroLive_stats_bank (s : State) : s.zeroLive.stats.bank = s.stats.bank := rfl
@[simp] theorem State.zeroLive_stats_intervalStart (s : State) :
    s.zeroLive.stats.intervalStart = s.time := rfl
@[simp] theorem State.zeroLive_stats_boundaries (s : State) :
    s.zeroLive.stats.boundaries = s.stats.boundaries := rfl
@[simp] theorem State.zeroLive_stats_autoInterval (s : State) :
    s.zeroLive.stats.autoInterval = s.stats.autoInterval := rfl
@[simp] theorem State.zeroLive_stats_timerStart (s : State) :
    s.zeroLive.stats.timerStart = s.stats.timerStart := rfl
@[simp] theorem State.zeroLive_incidents (s : State) : s.zeroLive.incidents = s.incidents := rfl
@[simp] theorem State.zeroLive_alerts (s : State) : s.zeroLive.alerts = s.alerts := rfl
@[simp] theorem State.zeroLive_port (s : State) : s.zeroLive.port = s.port := rfl
@[simp] theorem State.zeroLive_cause (s : State) : s.zeroLive.cause = s.cause := rfl
@[simp] theorem State.zeroLive_draws (s : State) : s.zeroLive.draws = s.draws := rfl
@[simp] theorem State.zeroLive_pending (s : State) : s.zeroLive.pending = s.pending := rfl

@[simp] theorem State.takeSnapshot_phase (s : State) : s.takeSnapshot.phase = s.phase := rfl
@[simp] theorem State.takeSnapshot_time (s : State) : s.takeSnapshot.time = s.time := rfl
@[simp] theorem State.takeSnapshot_intake (s : State) : s.takeSnapshot.intake = s.intake := rfl
@[simp] theorem State.takeSnapshot_map (s : State) : s.takeSnapshot.map = s.map := rfl
@[simp] theorem State.takeSnapshot_pool (s : State) : s.takeSnapshot.pool = s.pool := rfl
@[simp] theorem State.takeSnapshot_budget (s : State) : s.takeSnapshot.budget = s.budget := rfl
@[simp] theorem State.takeSnapshot_arbiter (s : State) : s.takeSnapshot.arbiter = s.arbiter := rfl
@[simp] theorem State.takeSnapshot_mem (s : State) : s.takeSnapshot.mem = s.mem := rfl
@[simp] theorem State.takeSnapshot_transit (s : State) : s.takeSnapshot.transit = s.transit := rfl
@[simp] theorem State.takeSnapshot_ret (s : State) : s.takeSnapshot.ret = s.ret := rfl
@[simp] theorem State.takeSnapshot_stats_live (s : State) :
    s.takeSnapshot.stats.live = Vector.replicate 16 ClassStats.zero := rfl
@[simp] theorem State.takeSnapshot_stats_globals (s : State) :
    s.takeSnapshot.stats.globals = GlobalStats.zero := rfl
@[simp] theorem State.takeSnapshot_stats_bank (s : State) :
    s.takeSnapshot.stats.bank
      = ⟨.locked, s.stats.live, s.stats.globals, s.time, s.time - s.stats.intervalStart⟩ := rfl
@[simp] theorem State.takeSnapshot_stats_intervalStart (s : State) :
    s.takeSnapshot.stats.intervalStart = s.time := rfl
@[simp] theorem State.takeSnapshot_stats_boundaries (s : State) :
    s.takeSnapshot.stats.boundaries = s.stats.boundaries := rfl
@[simp] theorem State.takeSnapshot_stats_autoInterval (s : State) :
    s.takeSnapshot.stats.autoInterval = s.stats.autoInterval := rfl
@[simp] theorem State.takeSnapshot_stats_timerStart (s : State) :
    s.takeSnapshot.stats.timerStart = s.stats.timerStart := rfl
@[simp] theorem State.takeSnapshot_incidents (s : State) : s.takeSnapshot.incidents = s.incidents :=
  rfl
@[simp] theorem State.takeSnapshot_alerts_snapshot (s : State) :
    s.takeSnapshot.alerts.snapshot = true := rfl
@[simp] theorem State.takeSnapshot_alerts_quiesce (s : State) :
    s.takeSnapshot.alerts.quiesce = s.alerts.quiesce := rfl
@[simp] theorem State.takeSnapshot_alerts_saturation (s : State) :
    s.takeSnapshot.alerts.saturation = s.alerts.saturation := rfl
@[simp] theorem State.takeSnapshot_alerts_enables (s : State) :
    s.takeSnapshot.alerts.enables = s.alerts.enables := rfl
@[simp] theorem State.takeSnapshot_port (s : State) : s.takeSnapshot.port = s.port := rfl
@[simp] theorem State.takeSnapshot_cause (s : State) : s.takeSnapshot.cause = s.cause := rfl
@[simp] theorem State.takeSnapshot_draws (s : State) : s.takeSnapshot.draws = s.draws := rfl
@[simp] theorem State.takeSnapshot_pending (s : State) : s.takeSnapshot.pending = s.pending := rfl

@[simp] theorem State.chooseOffer_phase (s : State) : s.chooseOffer.phase = s.phase := by
  unfold State.chooseOffer; split; split
  all_goals rfl
@[simp] theorem State.chooseOffer_time (s : State) : s.chooseOffer.time = s.time := by
  unfold State.chooseOffer; split; split
  all_goals rfl
@[simp] theorem State.chooseOffer_intake (s : State) : s.chooseOffer.intake = s.intake := by
  unfold State.chooseOffer; split; split
  all_goals rfl
@[simp] theorem State.chooseOffer_map (s : State) : s.chooseOffer.map = s.map := by
  unfold State.chooseOffer; split; split
  all_goals rfl
@[simp] theorem State.chooseOffer_pool (s : State) : s.chooseOffer.pool = s.pool := by
  unfold State.chooseOffer; split; split
  all_goals rfl
@[simp] theorem State.chooseOffer_budget (s : State) : s.chooseOffer.budget = s.budget := by
  unfold State.chooseOffer; split; split
  all_goals rfl
@[simp] theorem State.chooseOffer_arbiter (s : State) : s.chooseOffer.arbiter = s.arbiter := by
  unfold State.chooseOffer; split; split
  all_goals rfl
@[simp] theorem State.chooseOffer_mem (s : State) : s.chooseOffer.mem = s.mem := by
  unfold State.chooseOffer; split; split
  all_goals rfl
@[simp] theorem State.chooseOffer_transit (s : State) : s.chooseOffer.transit = s.transit := by
  unfold State.chooseOffer; split; split
  all_goals rfl
@[simp] theorem State.chooseOffer_ret_link (s : State) : s.chooseOffer.ret.link = s.ret.link := by
  unfold State.chooseOffer; split; split
  all_goals rfl
@[simp] theorem State.chooseOffer_ret_register (s : State) :
    s.chooseOffer.ret.register = s.ret.register := by
  unfold State.chooseOffer; split; split
  all_goals rfl
@[simp] theorem State.chooseOffer_ret_answers (s : State) :
    s.chooseOffer.ret.answers = s.ret.answers := by
  unfold State.chooseOffer; split; split
  all_goals rfl
@[simp] theorem State.chooseOffer_ret_turn (s : State) : s.chooseOffer.ret.turn = s.ret.turn := by
  unfold State.chooseOffer; split; split
  all_goals rfl
@[simp] theorem State.chooseOffer_stats (s : State) : s.chooseOffer.stats = s.stats := by
  unfold State.chooseOffer; split; split
  all_goals rfl
@[simp] theorem State.chooseOffer_incidents (s : State) : s.chooseOffer.incidents = s.incidents := by
  unfold State.chooseOffer; split; split
  all_goals rfl
@[simp] theorem State.chooseOffer_alerts (s : State) : s.chooseOffer.alerts = s.alerts := by
  unfold State.chooseOffer; split; split
  all_goals rfl
@[simp] theorem State.chooseOffer_port (s : State) : s.chooseOffer.port = s.port := by
  unfold State.chooseOffer; split; split
  all_goals rfl
@[simp] theorem State.chooseOffer_cause (s : State) : s.chooseOffer.cause = s.cause := by
  unfold State.chooseOffer; split; split
  all_goals rfl
@[simp] theorem State.chooseOffer_draws (s : State) : s.chooseOffer.draws = s.draws := by
  unfold State.chooseOffer; split; split
  all_goals rfl
@[simp] theorem State.chooseOffer_pending (s : State) : s.chooseOffer.pending = s.pending := by
  unfold State.chooseOffer; split; split
  all_goals rfl

@[simp] theorem State.completeQuiesce_phase (s : State) : s.completeQuiesce.phase = s.phase := by
  unfold State.completeQuiesce; split; split
  all_goals rfl
@[simp] theorem State.completeQuiesce_time (s : State) : s.completeQuiesce.time = s.time := by
  unfold State.completeQuiesce; split; split
  all_goals rfl
@[simp] theorem State.completeQuiesce_intake (s : State) : s.completeQuiesce.intake = s.intake := by
  unfold State.completeQuiesce; split; split
  all_goals rfl
@[simp] theorem State.completeQuiesce_map (s : State) : s.completeQuiesce.map = s.map := by
  unfold State.completeQuiesce; split; split
  all_goals rfl
@[simp] theorem State.completeQuiesce_pool (s : State) : s.completeQuiesce.pool = s.pool := by
  unfold State.completeQuiesce; split; split
  all_goals rfl
@[simp] theorem State.completeQuiesce_budget (s : State) : s.completeQuiesce.budget = s.budget := by
  unfold State.completeQuiesce; split; split
  all_goals rfl
@[simp] theorem State.completeQuiesce_arbiter_pointers (s : State) :
    s.completeQuiesce.arbiter.pointers = s.arbiter.pointers := by
  unfold State.completeQuiesce; split; split
  all_goals rfl
@[simp] theorem State.completeQuiesce_arbiter_channel (s : State) :
    s.completeQuiesce.arbiter.channel = s.arbiter.channel := by
  unfold State.completeQuiesce; split; split
  all_goals rfl
@[simp] theorem State.completeQuiesce_mem (s : State) : s.completeQuiesce.mem = s.mem := by
  unfold State.completeQuiesce; split; split
  all_goals rfl
@[simp] theorem State.completeQuiesce_transit (s : State) : s.completeQuiesce.transit = s.transit := by
  unfold State.completeQuiesce; split; split
  all_goals rfl
@[simp] theorem State.completeQuiesce_ret (s : State) : s.completeQuiesce.ret = s.ret := by
  unfold State.completeQuiesce; split; split
  all_goals rfl
@[simp] theorem State.completeQuiesce_stats (s : State) : s.completeQuiesce.stats = s.stats := by
  unfold State.completeQuiesce; split; split
  all_goals rfl
@[simp] theorem State.completeQuiesce_incidents (s : State) :
    s.completeQuiesce.incidents = s.incidents := by
  unfold State.completeQuiesce; split; split
  all_goals rfl
@[simp] theorem State.completeQuiesce_alerts_snapshot (s : State) :
    s.completeQuiesce.alerts.snapshot = s.alerts.snapshot := by
  unfold State.completeQuiesce; split; split
  all_goals rfl
@[simp] theorem State.completeQuiesce_alerts_saturation (s : State) :
    s.completeQuiesce.alerts.saturation = s.alerts.saturation := by
  unfold State.completeQuiesce; split; split
  all_goals rfl
@[simp] theorem State.completeQuiesce_alerts_enables (s : State) :
    s.completeQuiesce.alerts.enables = s.alerts.enables := by
  unfold State.completeQuiesce; split; split
  all_goals rfl
@[simp] theorem State.completeQuiesce_port_straps (s : State) :
    s.completeQuiesce.port.straps = s.port.straps := by
  unfold State.completeQuiesce; split; split
  all_goals rfl
@[simp] theorem State.completeQuiesce_port_bus (s : State) :
    s.completeQuiesce.port.bus = s.port.bus := by
  unfold State.completeQuiesce; split; split
  all_goals rfl
@[simp] theorem State.completeQuiesce_port_ack (s : State) :
    s.completeQuiesce.port.ack = s.port.ack := by
  unfold State.completeQuiesce; split; split
  all_goals rfl
@[simp] theorem State.completeQuiesce_port_sent (s : State) :
    s.completeQuiesce.port.sent = s.port.sent := by
  unfold State.completeQuiesce; split; split
  all_goals rfl
@[simp] theorem State.completeQuiesce_port_offset (s : State) :
    s.completeQuiesce.port.offset = s.port.offset := by
  unfold State.completeQuiesce; split; split
  all_goals rfl
@[simp] theorem State.completeQuiesce_port_latch (s : State) :
    s.completeQuiesce.port.latch = s.port.latch := by
  unfold State.completeQuiesce; split; split
  all_goals rfl
@[simp] theorem State.completeQuiesce_port_assembly (s : State) :
    s.completeQuiesce.port.assembly = s.port.assembly := by
  unfold State.completeQuiesce; split; split
  all_goals rfl
@[simp] theorem State.completeQuiesce_port_commandCode (s : State) :
    s.completeQuiesce.port.commandCode = s.port.commandCode := by
  unfold State.completeQuiesce; split; split
  all_goals rfl
@[simp] theorem State.completeQuiesce_port_commandArgument (s : State) :
    s.completeQuiesce.port.commandArgument = s.port.commandArgument := by
  unfold State.completeQuiesce; split; split
  all_goals rfl
@[simp] theorem State.completeQuiesce_cause (s : State) : s.completeQuiesce.cause = s.cause := by
  unfold State.completeQuiesce; split; split
  all_goals rfl
@[simp] theorem State.completeQuiesce_draws (s : State) : s.completeQuiesce.draws = s.draws := by
  unfold State.completeQuiesce; split; split
  all_goals rfl
@[simp] theorem State.completeQuiesce_pending (s : State) : s.completeQuiesce.pending = s.pending := by
  unfold State.completeQuiesce; split; split
  all_goals rfl

@[simp] theorem State.setAssembly_phase (s : State) (a : Option (Field × List Byte)) :
    (s.setAssembly a).phase = s.phase := rfl
@[simp] theorem State.setAssembly_time (s : State) (a : Option (Field × List Byte)) :
    (s.setAssembly a).time = s.time := rfl
@[simp] theorem State.setAssembly_intake (s : State) (a : Option (Field × List Byte)) :
    (s.setAssembly a).intake = s.intake := rfl
@[simp] theorem State.setAssembly_map (s : State) (a : Option (Field × List Byte)) :
    (s.setAssembly a).map = s.map := rfl
@[simp] theorem State.setAssembly_pool (s : State) (a : Option (Field × List Byte)) :
    (s.setAssembly a).pool = s.pool := rfl
@[simp] theorem State.setAssembly_budget (s : State) (a : Option (Field × List Byte)) :
    (s.setAssembly a).budget = s.budget := rfl
@[simp] theorem State.setAssembly_arbiter (s : State) (a : Option (Field × List Byte)) :
    (s.setAssembly a).arbiter = s.arbiter := rfl
@[simp] theorem State.setAssembly_mem (s : State) (a : Option (Field × List Byte)) :
    (s.setAssembly a).mem = s.mem := rfl
@[simp] theorem State.setAssembly_transit (s : State) (a : Option (Field × List Byte)) :
    (s.setAssembly a).transit = s.transit := rfl
@[simp] theorem State.setAssembly_ret (s : State) (a : Option (Field × List Byte)) :
    (s.setAssembly a).ret = s.ret := rfl
@[simp] theorem State.setAssembly_stats (s : State) (a : Option (Field × List Byte)) :
    (s.setAssembly a).stats = s.stats := rfl
@[simp] theorem State.setAssembly_incidents (s : State) (a : Option (Field × List Byte)) :
    (s.setAssembly a).incidents = s.incidents := rfl
@[simp] theorem State.setAssembly_alerts (s : State) (a : Option (Field × List Byte)) :
    (s.setAssembly a).alerts = s.alerts := rfl
@[simp] theorem State.setAssembly_port_straps (s : State) (a : Option (Field × List Byte)) :
    (s.setAssembly a).port.straps = s.port.straps := rfl
@[simp] theorem State.setAssembly_port_bus (s : State) (a : Option (Field × List Byte)) :
    (s.setAssembly a).port.bus = s.port.bus := rfl
@[simp] theorem State.setAssembly_port_ack (s : State) (a : Option (Field × List Byte)) :
    (s.setAssembly a).port.ack = s.port.ack := rfl
@[simp] theorem State.setAssembly_port_sent (s : State) (a : Option (Field × List Byte)) :
    (s.setAssembly a).port.sent = s.port.sent := rfl
@[simp] theorem State.setAssembly_port_offset (s : State) (a : Option (Field × List Byte)) :
    (s.setAssembly a).port.offset = s.port.offset := rfl
@[simp] theorem State.setAssembly_port_latch (s : State) (a : Option (Field × List Byte)) :
    (s.setAssembly a).port.latch = s.port.latch := rfl
@[simp] theorem State.setAssembly_port_assembly (s : State) (a : Option (Field × List Byte)) :
    (s.setAssembly a).port.assembly = a := rfl
@[simp] theorem State.setAssembly_port_commandCode (s : State) (a : Option (Field × List Byte)) :
    (s.setAssembly a).port.commandCode = s.port.commandCode := rfl
@[simp] theorem State.setAssembly_port_commandArgument (s : State) (a : Option
    (Field × List Byte)) :
    (s.setAssembly a).port.commandArgument = s.port.commandArgument := rfl
@[simp] theorem State.setAssembly_port_status (s : State) (a : Option (Field × List Byte)) :
    (s.setAssembly a).port.status = s.port.status := rfl
@[simp] theorem State.setAssembly_cause (s : State) (a : Option (Field × List Byte)) :
    (s.setAssembly a).cause = s.cause := rfl
@[simp] theorem State.setAssembly_draws (s : State) (a : Option (Field × List Byte)) :
    (s.setAssembly a).draws = s.draws := rfl
@[simp] theorem State.setAssembly_pending (s : State) (a : Option (Field × List Byte)) :
    (s.setAssembly a).pending = s.pending := rfl

@[simp] theorem State.advanceOffset_phase (s : State) : s.advanceOffset.phase = s.phase := rfl
@[simp] theorem State.advanceOffset_time (s : State) : s.advanceOffset.time = s.time := rfl
@[simp] theorem State.advanceOffset_intake (s : State) : s.advanceOffset.intake = s.intake := rfl
@[simp] theorem State.advanceOffset_map (s : State) : s.advanceOffset.map = s.map := rfl
@[simp] theorem State.advanceOffset_pool (s : State) : s.advanceOffset.pool = s.pool := rfl
@[simp] theorem State.advanceOffset_budget (s : State) : s.advanceOffset.budget = s.budget := rfl
@[simp] theorem State.advanceOffset_arbiter (s : State) : s.advanceOffset.arbiter = s.arbiter := rfl
@[simp] theorem State.advanceOffset_mem (s : State) : s.advanceOffset.mem = s.mem := rfl
@[simp] theorem State.advanceOffset_transit (s : State) : s.advanceOffset.transit = s.transit := rfl
@[simp] theorem State.advanceOffset_ret (s : State) : s.advanceOffset.ret = s.ret := rfl
@[simp] theorem State.advanceOffset_stats (s : State) : s.advanceOffset.stats = s.stats := rfl
@[simp] theorem State.advanceOffset_incidents (s : State) :
    s.advanceOffset.incidents = s.incidents := rfl
@[simp] theorem State.advanceOffset_alerts (s : State) : s.advanceOffset.alerts = s.alerts := rfl
@[simp] theorem State.advanceOffset_port_straps (s : State) :
    s.advanceOffset.port.straps = s.port.straps := rfl
@[simp] theorem State.advanceOffset_port_bus (s : State) : s.advanceOffset.port.bus = s.port.bus :=
  rfl
@[simp] theorem State.advanceOffset_port_ack (s : State) : s.advanceOffset.port.ack = s.port.ack :=
  rfl
@[simp] theorem State.advanceOffset_port_sent (s : State) :
    s.advanceOffset.port.sent = s.port.sent := rfl
@[simp] theorem State.advanceOffset_port_offset (s : State) :
    s.advanceOffset.port.offset = s.port.offset + 1 := rfl
@[simp] theorem State.advanceOffset_port_latch (s : State) :
    s.advanceOffset.port.latch = s.port.latch := rfl
@[simp] theorem State.advanceOffset_port_assembly (s : State) :
    s.advanceOffset.port.assembly = s.port.assembly := rfl
@[simp] theorem State.advanceOffset_port_commandCode (s : State) :
    s.advanceOffset.port.commandCode = s.port.commandCode := rfl
@[simp] theorem State.advanceOffset_port_commandArgument (s : State) :
    s.advanceOffset.port.commandArgument = s.port.commandArgument := rfl
@[simp] theorem State.advanceOffset_port_status (s : State) :
    s.advanceOffset.port.status = s.port.status := rfl
@[simp] theorem State.advanceOffset_cause (s : State) : s.advanceOffset.cause = s.cause := rfl
@[simp] theorem State.advanceOffset_draws (s : State) : s.advanceOffset.draws = s.draws := rfl
@[simp] theorem State.advanceOffset_pending (s : State) : s.advanceOffset.pending = s.pending := rfl

@[simp] theorem State.movePointer_phase (s : State) (c : ClassId) :
    (s.movePointer c).phase = s.phase := rfl
@[simp] theorem State.movePointer_time (s : State) (c : ClassId) :
    (s.movePointer c).time = s.time := rfl
@[simp] theorem State.movePointer_intake (s : State) (c : ClassId) :
    (s.movePointer c).intake = s.intake := rfl
@[simp] theorem State.movePointer_map (s : State) (c : ClassId) : (s.movePointer c).map = s.map := rfl
@[simp] theorem State.movePointer_pool (s : State) (c : ClassId) :
    (s.movePointer c).pool = s.pool := rfl
@[simp] theorem State.movePointer_budget (s : State) (c : ClassId) :
    (s.movePointer c).budget = s.budget := rfl
@[simp] theorem State.movePointer_arbiter_quiesce (s : State) (c : ClassId) :
    (s.movePointer c).arbiter.quiesce = s.arbiter.quiesce := rfl
@[simp] theorem State.movePointer_arbiter_pointers (s : State) (c : ClassId) :
    (s.movePointer c).arbiter.pointers = s.arbiter.pointers.set (s.level c) (c + 1) := rfl
@[simp] theorem State.movePointer_arbiter_channel (s : State) (c : ClassId) :
    (s.movePointer c).arbiter.channel = s.arbiter.channel := rfl
@[simp] theorem State.movePointer_mem (s : State) (c : ClassId) : (s.movePointer c).mem = s.mem := rfl
@[simp] theorem State.movePointer_transit (s : State) (c : ClassId) :
    (s.movePointer c).transit = s.transit := rfl
@[simp] theorem State.movePointer_ret (s : State) (c : ClassId) : (s.movePointer c).ret = s.ret := rfl
@[simp] theorem State.movePointer_stats (s : State) (c : ClassId) :
    (s.movePointer c).stats = s.stats := rfl
@[simp] theorem State.movePointer_incidents (s : State) (c : ClassId) :
    (s.movePointer c).incidents = s.incidents := rfl
@[simp] theorem State.movePointer_alerts (s : State) (c : ClassId) :
    (s.movePointer c).alerts = s.alerts := rfl
@[simp] theorem State.movePointer_port (s : State) (c : ClassId) :
    (s.movePointer c).port = s.port := rfl
@[simp] theorem State.movePointer_cause (s : State) (c : ClassId) :
    (s.movePointer c).cause = s.cause := rfl
@[simp] theorem State.movePointer_draws (s : State) (c : ClassId) :
    (s.movePointer c).draws = s.draws := rfl
@[simp] theorem State.movePointer_pending (s : State) (c : ClassId) :
    (s.movePointer c).pending = s.pending := rfl

@[simp] theorem State.allocate_phase (s : State) (k : SlotId) (r : SlotRecord) :
    (s.allocate k r).phase = s.phase := rfl
@[simp] theorem State.allocate_time (s : State) (k : SlotId) (r : SlotRecord) :
    (s.allocate k r).time = s.time := rfl
@[simp] theorem State.allocate_intake (s : State) (k : SlotId) (r : SlotRecord) :
    (s.allocate k r).intake = s.intake := rfl
@[simp] theorem State.allocate_map (s : State) (k : SlotId) (r : SlotRecord) :
    (s.allocate k r).map = s.map := rfl
@[simp] theorem State.allocate_pool (s : State) (k : SlotId) (r : SlotRecord) :
    (s.allocate k r).pool = s.pool := rfl
@[simp] theorem State.allocate_budget (s : State) (k : SlotId) (r : SlotRecord) :
    (s.allocate k r).budget = s.budget := rfl
@[simp] theorem State.allocate_arbiter (s : State) (k : SlotId) (r : SlotRecord) :
    (s.allocate k r).arbiter = s.arbiter := rfl
@[simp] theorem State.allocate_mem (s : State) (k : SlotId) (r : SlotRecord) :
    (s.allocate k r).mem = s.mem := rfl
@[simp] theorem State.allocate_transit_slots (s : State) (k : SlotId) (r : SlotRecord) :
    (s.allocate k r).transit.slots = s.transit.slots.set k
      { epoch := s.transit.slots[k].epoch + 1, state := .inFlight r (deadlineTimeOf r) false } := rfl
@[simp] theorem State.allocate_transit_order (s : State) (k : SlotId) (r : SlotRecord) :
    (s.allocate k r).transit.order = s.transit.order.filter (fun j => decide (j ≠ k)) ++ [k] := rfl
@[simp] theorem State.allocate_ret (s : State) (k : SlotId) (r : SlotRecord) :
    (s.allocate k r).ret = s.ret := rfl
@[simp] theorem State.allocate_stats (s : State) (k : SlotId) (r : SlotRecord) :
    (s.allocate k r).stats = s.stats := rfl
@[simp] theorem State.allocate_incidents (s : State) (k : SlotId) (r : SlotRecord) :
    (s.allocate k r).incidents = s.incidents := rfl
@[simp] theorem State.allocate_alerts (s : State) (k : SlotId) (r : SlotRecord) :
    (s.allocate k r).alerts = s.alerts := rfl
@[simp] theorem State.allocate_port (s : State) (k : SlotId) (r : SlotRecord) :
    (s.allocate k r).port = s.port := rfl
@[simp] theorem State.allocate_cause (s : State) (k : SlotId) (r : SlotRecord) :
    (s.allocate k r).cause = s.cause := rfl
@[simp] theorem State.allocate_draws (s : State) (k : SlotId) (r : SlotRecord) :
    (s.allocate k r).draws = s.draws := rfl
@[simp] theorem State.allocate_pending (s : State) (k : SlotId) (r : SlotRecord) :
    (s.allocate k r).pending = s.pending := rfl

@[simp] theorem State.charge_phase (s : State) (c : ClassId) (n : Nat) :
    (s.charge c n).phase = s.phase := by
  unfold State.charge; split <;> rfl
@[simp] theorem State.charge_time (s : State) (c : ClassId) (n : Nat) :
    (s.charge c n).time = s.time := by
  unfold State.charge; split <;> rfl
@[simp] theorem State.charge_intake (s : State) (c : ClassId) (n : Nat) :
    (s.charge c n).intake = s.intake := by
  unfold State.charge; split <;> rfl
@[simp] theorem State.charge_map (s : State) (c : ClassId) (n : Nat) : (s.charge c n).map = s.map := by
  unfold State.charge; split <;> rfl
@[simp] theorem State.charge_pool (s : State) (c : ClassId) (n : Nat) :
    (s.charge c n).pool = s.pool := by
  unfold State.charge; split <;> rfl
@[simp] theorem State.charge_arbiter (s : State) (c : ClassId) (n : Nat) :
    (s.charge c n).arbiter = s.arbiter := by
  unfold State.charge; split <;> rfl
@[simp] theorem State.charge_mem (s : State) (c : ClassId) (n : Nat) : (s.charge c n).mem = s.mem := by
  unfold State.charge; split <;> rfl
@[simp] theorem State.charge_transit (s : State) (c : ClassId) (n : Nat) :
    (s.charge c n).transit = s.transit := by
  unfold State.charge; split <;> rfl
@[simp] theorem State.charge_ret (s : State) (c : ClassId) (n : Nat) : (s.charge c n).ret = s.ret := by
  unfold State.charge; split <;> rfl
@[simp] theorem State.charge_stats (s : State) (c : ClassId) (n : Nat) :
    (s.charge c n).stats = s.stats := by
  unfold State.charge; split <;> rfl
@[simp] theorem State.charge_incidents (s : State) (c : ClassId) (n : Nat) :
    (s.charge c n).incidents = s.incidents := by
  unfold State.charge; split <;> rfl
@[simp] theorem State.charge_alerts (s : State) (c : ClassId) (n : Nat) :
    (s.charge c n).alerts = s.alerts := by
  unfold State.charge; split <;> rfl
@[simp] theorem State.charge_port (s : State) (c : ClassId) (n : Nat) :
    (s.charge c n).port = s.port := by
  unfold State.charge; split <;> rfl
@[simp] theorem State.charge_cause (s : State) (c : ClassId) (n : Nat) :
    (s.charge c n).cause = s.cause := by
  unfold State.charge; split <;> rfl
@[simp] theorem State.charge_draws (s : State) (c : ClassId) (n : Nat) :
    (s.charge c n).draws = s.draws := by
  unfold State.charge; split <;> rfl
@[simp] theorem State.charge_pending (s : State) (c : ClassId) (n : Nat) :
    (s.charge c n).pending = s.pending := by
  unfold State.charge; split <;> rfl

@[simp] theorem State.removeHead_phase (s : State) (c : ClassId) (e : EntryId) :
    (s.removeHead c e).phase = s.phase := rfl
@[simp] theorem State.removeHead_time (s : State) (c : ClassId) (e : EntryId) :
    (s.removeHead c e).time = s.time := rfl
@[simp] theorem State.removeHead_intake (s : State) (c : ClassId) (e : EntryId) :
    (s.removeHead c e).intake = s.intake := rfl
@[simp] theorem State.removeHead_map (s : State) (c : ClassId) (e : EntryId) :
    (s.removeHead c e).map = s.map := rfl
@[simp] theorem State.removeHead_pool_entries (s : State) (c : ClassId) (e : EntryId) :
    (s.removeHead c e).pool.entries = (s.pool.entries.set e .free).map (HoldEntry.dropMember e) := rfl
@[simp] theorem State.removeHead_pool_queues (s : State) (c : ClassId) (e : EntryId) :
    (s.removeHead c e).pool.queues = s.pool.queues.set c s.pool.queues[c].tail := rfl
@[simp] theorem State.removeHead_budget (s : State) (c : ClassId) (e : EntryId) :
    (s.removeHead c e).budget = s.budget := rfl
@[simp] theorem State.removeHead_arbiter (s : State) (c : ClassId) (e : EntryId) :
    (s.removeHead c e).arbiter = s.arbiter := rfl
@[simp] theorem State.removeHead_mem (s : State) (c : ClassId) (e : EntryId) :
    (s.removeHead c e).mem = s.mem := rfl
@[simp] theorem State.removeHead_transit (s : State) (c : ClassId) (e : EntryId) :
    (s.removeHead c e).transit = s.transit := rfl
@[simp] theorem State.removeHead_ret (s : State) (c : ClassId) (e : EntryId) :
    (s.removeHead c e).ret = s.ret := rfl
@[simp] theorem State.removeHead_stats (s : State) (c : ClassId) (e : EntryId) :
    (s.removeHead c e).stats = s.stats := rfl
@[simp] theorem State.removeHead_incidents (s : State) (c : ClassId) (e : EntryId) :
    (s.removeHead c e).incidents = s.incidents := rfl
@[simp] theorem State.removeHead_alerts (s : State) (c : ClassId) (e : EntryId) :
    (s.removeHead c e).alerts = s.alerts := rfl
@[simp] theorem State.removeHead_port (s : State) (c : ClassId) (e : EntryId) :
    (s.removeHead c e).port = s.port := rfl
@[simp] theorem State.removeHead_cause (s : State) (c : ClassId) (e : EntryId) :
    (s.removeHead c e).cause = s.cause := rfl
@[simp] theorem State.removeHead_draws (s : State) (c : ClassId) (e : EntryId) :
    (s.removeHead c e).draws = s.draws := rfl
@[simp] theorem State.removeHead_pending (s : State) (c : ClassId) (e : EntryId) :
    (s.removeHead c e).pending = s.pending := rfl

@[simp] theorem State.send_phase (s : State) (k : SlotId) (m : BitVec 3) (r : HoldRecord) :
    (s.send k m r).phase = s.phase := rfl
@[simp] theorem State.send_time (s : State) (k : SlotId) (m : BitVec 3) (r : HoldRecord) :
    (s.send k m r).time = s.time := rfl
@[simp] theorem State.send_intake (s : State) (k : SlotId) (m : BitVec 3) (r : HoldRecord) :
    (s.send k m r).intake = s.intake := rfl
@[simp] theorem State.send_map (s : State) (k : SlotId) (m : BitVec 3) (r : HoldRecord) :
    (s.send k m r).map = s.map := rfl
@[simp] theorem State.send_pool (s : State) (k : SlotId) (m : BitVec 3) (r : HoldRecord) :
    (s.send k m r).pool = s.pool := rfl
@[simp] theorem State.send_budget (s : State) (k : SlotId) (m : BitVec 3) (r : HoldRecord) :
    (s.send k m r).budget = s.budget := rfl
@[simp] theorem State.send_arbiter_quiesce (s : State) (k : SlotId) (m : BitVec 3)
    (r : HoldRecord) :
    (s.send k m r).arbiter.quiesce = s.arbiter.quiesce := rfl
@[simp] theorem State.send_arbiter_pointers (s : State) (k : SlotId) (m : BitVec 3)
    (r : HoldRecord) :
    (s.send k m r).arbiter.pointers = s.arbiter.pointers := rfl
@[simp] theorem State.send_arbiter_channel (s : State) (k : SlotId) (m : BitVec 3)
    (r : HoldRecord) :
    (s.send k m r).arbiter.channel
      = some ⟨r.source, r.kind, r.address, r.length, downstreamTag k m, r.data⟩ := rfl
@[simp] theorem State.send_mem (s : State) (k : SlotId) (m : BitVec 3) (r : HoldRecord) :
    (s.send k m r).mem = s.mem := rfl
@[simp] theorem State.send_transit (s : State) (k : SlotId) (m : BitVec 3) (r : HoldRecord) :
    (s.send k m r).transit = s.transit := rfl
@[simp] theorem State.send_ret (s : State) (k : SlotId) (m : BitVec 3) (r : HoldRecord) :
    (s.send k m r).ret = s.ret := rfl
@[simp] theorem State.send_stats (s : State) (k : SlotId) (m : BitVec 3) (r : HoldRecord) :
    (s.send k m r).stats = s.stats := rfl
@[simp] theorem State.send_incidents (s : State) (k : SlotId) (m : BitVec 3) (r : HoldRecord) :
    (s.send k m r).incidents = s.incidents := rfl
@[simp] theorem State.send_alerts (s : State) (k : SlotId) (m : BitVec 3) (r : HoldRecord) :
    (s.send k m r).alerts = s.alerts := rfl
@[simp] theorem State.send_port (s : State) (k : SlotId) (m : BitVec 3) (r : HoldRecord) :
    (s.send k m r).port = s.port := rfl
@[simp] theorem State.send_cause (s : State) (k : SlotId) (m : BitVec 3) (r : HoldRecord) :
    (s.send k m r).cause = s.cause := rfl
@[simp] theorem State.send_draws (s : State) (k : SlotId) (m : BitVec 3) (r : HoldRecord) :
    (s.send k m r).draws = s.draws := rfl
@[simp] theorem State.send_pending (s : State) (k : SlotId) (m : BitVec 3) (r : HoldRecord) :
    (s.send k m r).pending = s.pending := rfl

@[simp] theorem State.withdrawAnswer_phase (s : State) (k : SlotId) :
    (s.withdrawAnswer k).phase = s.phase := rfl
@[simp] theorem State.withdrawAnswer_time (s : State) (k : SlotId) :
    (s.withdrawAnswer k).time = s.time := rfl
@[simp] theorem State.withdrawAnswer_intake (s : State) (k : SlotId) :
    (s.withdrawAnswer k).intake = s.intake := rfl
@[simp] theorem State.withdrawAnswer_map (s : State) (k : SlotId) :
    (s.withdrawAnswer k).map = s.map := rfl
@[simp] theorem State.withdrawAnswer_pool (s : State) (k : SlotId) :
    (s.withdrawAnswer k).pool = s.pool := rfl
@[simp] theorem State.withdrawAnswer_budget (s : State) (k : SlotId) :
    (s.withdrawAnswer k).budget = s.budget := rfl
@[simp] theorem State.withdrawAnswer_arbiter (s : State) (k : SlotId) :
    (s.withdrawAnswer k).arbiter = s.arbiter := rfl
@[simp] theorem State.withdrawAnswer_mem (s : State) (k : SlotId) :
    (s.withdrawAnswer k).mem = s.mem := rfl
@[simp] theorem State.withdrawAnswer_transit (s : State) (k : SlotId) :
    (s.withdrawAnswer k).transit = s.transit := rfl
@[simp] theorem State.withdrawAnswer_ret_link (s : State) (k : SlotId) :
    (s.withdrawAnswer k).ret.link = s.ret.link := rfl
@[simp] theorem State.withdrawAnswer_ret_register (s : State) (k : SlotId) :
    (s.withdrawAnswer k).ret.register = s.ret.register := rfl
@[simp] theorem State.withdrawAnswer_ret_answers (s : State) (k : SlotId) :
    (s.withdrawAnswer k).ret.answers = s.ret.answers.filter (fun o => decide (o ≠ .slot k)) := rfl
@[simp] theorem State.withdrawAnswer_ret_turn (s : State) (k : SlotId) :
    (s.withdrawAnswer k).ret.turn = s.ret.turn := rfl
@[simp] theorem State.withdrawAnswer_stats (s : State) (k : SlotId) :
    (s.withdrawAnswer k).stats = s.stats := rfl
@[simp] theorem State.withdrawAnswer_incidents (s : State) (k : SlotId) :
    (s.withdrawAnswer k).incidents = s.incidents := rfl
@[simp] theorem State.withdrawAnswer_alerts (s : State) (k : SlotId) :
    (s.withdrawAnswer k).alerts = s.alerts := rfl
@[simp] theorem State.withdrawAnswer_port (s : State) (k : SlotId) :
    (s.withdrawAnswer k).port = s.port := rfl
@[simp] theorem State.withdrawAnswer_cause (s : State) (k : SlotId) :
    (s.withdrawAnswer k).cause = s.cause := rfl
@[simp] theorem State.withdrawAnswer_draws (s : State) (k : SlotId) :
    (s.withdrawAnswer k).draws = s.draws := rfl
@[simp] theorem State.withdrawAnswer_pending (s : State) (k : SlotId) :
    (s.withdrawAnswer k).pending = s.pending := rfl

@[simp] theorem State.deliver_phase (s : State) (k : SlotId) (r : SlotRecord) (x : MemResponse)
    (o : Origin) :
    (s.deliver k r x o).phase = s.phase := rfl
@[simp] theorem State.deliver_time (s : State) (k : SlotId) (r : SlotRecord) (x : MemResponse)
    (o : Origin) :
    (s.deliver k r x o).time = s.time := rfl
@[simp] theorem State.deliver_intake (s : State) (k : SlotId) (r : SlotRecord) (x : MemResponse)
    (o : Origin) :
    (s.deliver k r x o).intake = s.intake := rfl
@[simp] theorem State.deliver_map (s : State) (k : SlotId) (r : SlotRecord) (x : MemResponse)
    (o : Origin) :
    (s.deliver k r x o).map = s.map := rfl
@[simp] theorem State.deliver_pool (s : State) (k : SlotId) (r : SlotRecord) (x : MemResponse)
    (o : Origin) :
    (s.deliver k r x o).pool = s.pool := rfl
@[simp] theorem State.deliver_budget (s : State) (k : SlotId) (r : SlotRecord) (x : MemResponse)
    (o : Origin) :
    (s.deliver k r x o).budget = s.budget := rfl
@[simp] theorem State.deliver_arbiter (s : State) (k : SlotId) (r : SlotRecord)
    (x : MemResponse) (o : Origin) :
    (s.deliver k r x o).arbiter = s.arbiter := rfl
@[simp] theorem State.deliver_mem (s : State) (k : SlotId) (r : SlotRecord) (x : MemResponse)
    (o : Origin) :
    (s.deliver k r x o).mem = s.mem := rfl
@[simp] theorem State.deliver_transit_slots (s : State) (k : SlotId) (r : SlotRecord)
    (x : MemResponse) (o : Origin) :
    (s.deliver k r x o).transit.slots
      = s.transit.slots.set k { s.transit.slots[k] with state := .free } := rfl
@[simp] theorem State.deliver_transit_order (s : State) (k : SlotId) (r : SlotRecord)
    (x : MemResponse) (o : Origin) :
    (s.deliver k r x o).transit.order = s.transit.order := rfl
@[simp] theorem State.deliver_ret_link (s : State) (k : SlotId) (r : SlotRecord)
    (x : MemResponse) (o : Origin) :
    (s.deliver k r x o).ret.link = s.ret.link := rfl
@[simp] theorem State.deliver_ret_channel (s : State) (k : SlotId) (r : SlotRecord)
    (x : MemResponse) (o : Origin) :
    (s.deliver k r x o).ret.channel = s.ret.channel := rfl
@[simp] theorem State.deliver_ret_register (s : State) (k : SlotId) (r : SlotRecord)
    (x : MemResponse) (o : Origin) :
    (s.deliver k r x o).ret.register = .matched (matchedResponse r x o) := rfl
@[simp] theorem State.deliver_ret_answers (s : State) (k : SlotId) (r : SlotRecord)
    (x : MemResponse) (o : Origin) :
    (s.deliver k r x o).ret.answers = s.ret.answers := rfl
@[simp] theorem State.deliver_ret_turn (s : State) (k : SlotId) (r : SlotRecord)
    (x : MemResponse) (o : Origin) :
    (s.deliver k r x o).ret.turn = s.ret.turn := rfl
@[simp] theorem State.deliver_stats (s : State) (k : SlotId) (r : SlotRecord) (x : MemResponse)
    (o : Origin) :
    (s.deliver k r x o).stats = s.stats := rfl
@[simp] theorem State.deliver_incidents (s : State) (k : SlotId) (r : SlotRecord)
    (x : MemResponse) (o : Origin) :
    (s.deliver k r x o).incidents = s.incidents := rfl
@[simp] theorem State.deliver_alerts (s : State) (k : SlotId) (r : SlotRecord) (x : MemResponse)
    (o : Origin) :
    (s.deliver k r x o).alerts = s.alerts := rfl
@[simp] theorem State.deliver_port (s : State) (k : SlotId) (r : SlotRecord) (x : MemResponse)
    (o : Origin) :
    (s.deliver k r x o).port = s.port := rfl
@[simp] theorem State.deliver_cause (s : State) (k : SlotId) (r : SlotRecord) (x : MemResponse)
    (o : Origin) :
    (s.deliver k r x o).cause = s.cause := rfl
@[simp] theorem State.deliver_draws (s : State) (k : SlotId) (r : SlotRecord) (x : MemResponse)
    (o : Origin) :
    (s.deliver k r x o).draws = s.draws := rfl
@[simp] theorem State.deliver_pending (s : State) (k : SlotId) (r : SlotRecord)
    (x : MemResponse) (o : Origin) :
    (s.deliver k r x o).pending = s.pending := rfl

@[simp] theorem State.endStall_phase (s : State) (q : StalledRequest) :
    (s.endStall q).phase = s.phase := rfl
@[simp] theorem State.endStall_time (s : State) (q : StalledRequest) :
    (s.endStall q).time = s.time := rfl
@[simp] theorem State.endStall_intake_register (s : State) (q : StalledRequest) :
    (s.endStall q).intake.register = .empty := rfl
@[simp] theorem State.endStall_intake_stallLimit (s : State) (q : StalledRequest) :
    (s.endStall q).intake.stallLimit = s.intake.stallLimit := rfl
@[simp] theorem State.endStall_map (s : State) (q : StalledRequest) : (s.endStall q).map = s.map :=
  rfl
@[simp] theorem State.endStall_pool (s : State) (q : StalledRequest) :
    (s.endStall q).pool = s.pool := rfl
@[simp] theorem State.endStall_budget (s : State) (q : StalledRequest) :
    (s.endStall q).budget = s.budget := rfl
@[simp] theorem State.endStall_arbiter (s : State) (q : StalledRequest) :
    (s.endStall q).arbiter = s.arbiter := rfl
@[simp] theorem State.endStall_mem (s : State) (q : StalledRequest) : (s.endStall q).mem = s.mem :=
  rfl
@[simp] theorem State.endStall_transit (s : State) (q : StalledRequest) :
    (s.endStall q).transit = s.transit := rfl
@[simp] theorem State.endStall_ret (s : State) (q : StalledRequest) : (s.endStall q).ret = s.ret :=
  rfl
@[simp] theorem State.endStall_stats_globals (s : State) (q : StalledRequest) :
    (s.endStall q).stats.globals = s.stats.globals := rfl
@[simp] theorem State.endStall_stats_bank (s : State) (q : StalledRequest) :
    (s.endStall q).stats.bank = s.stats.bank := rfl
@[simp] theorem State.endStall_stats_intervalStart (s : State) (q : StalledRequest) :
    (s.endStall q).stats.intervalStart = s.stats.intervalStart := rfl
@[simp] theorem State.endStall_stats_boundaries (s : State) (q : StalledRequest) :
    (s.endStall q).stats.boundaries = s.stats.boundaries := rfl
@[simp] theorem State.endStall_stats_autoInterval (s : State) (q : StalledRequest) :
    (s.endStall q).stats.autoInterval = s.stats.autoInterval := rfl
@[simp] theorem State.endStall_stats_timerStart (s : State) (q : StalledRequest) :
    (s.endStall q).stats.timerStart = s.stats.timerStart := rfl
@[simp] theorem State.endStall_incidents (s : State) (q : StalledRequest) :
    (s.endStall q).incidents = s.incidents := rfl
@[simp] theorem State.endStall_alerts_snapshot (s : State) (q : StalledRequest) :
    (s.endStall q).alerts.snapshot = s.alerts.snapshot := rfl
@[simp] theorem State.endStall_alerts_quiesce (s : State) (q : StalledRequest) :
    (s.endStall q).alerts.quiesce = s.alerts.quiesce := rfl
@[simp] theorem State.endStall_alerts_enables (s : State) (q : StalledRequest) :
    (s.endStall q).alerts.enables = s.alerts.enables := rfl
@[simp] theorem State.endStall_port (s : State) (q : StalledRequest) :
    (s.endStall q).port = s.port := rfl
@[simp] theorem State.endStall_cause (s : State) (q : StalledRequest) :
    (s.endStall q).cause = s.cause := rfl
@[simp] theorem State.endStall_draws (s : State) (q : StalledRequest) :
    (s.endStall q).draws = s.draws := rfl
@[simp] theorem State.endStall_pending (s : State) (q : StalledRequest) :
    (s.endStall q).pending = s.pending := rfl

end Sys2Proof.Machine
end

