-- ==== Sys2Proof/Laws/Ops.lean ====
section
/-! SUPPORT. For each shared operation, once, everything it can do: held effects, counters, the placement,
the head conditions, period boundaries, the response channel and the quiesce. -/

namespace Sys2Proof.Machine

/-! ## Running and held in reset -/

theorem State.whenRunning_of_running {s : State} (h : s.phase = .running) (f : State → State) :
    s.whenRunning f = f s := by
  simp [State.whenRunning, h]

theorem State.whenRunning_of_reset {s : State} (h : s.phase ≠ .running) (f : State → State) :
    s.whenRunning f = s := by
  unfold State.whenRunning
  split
  · exact absurd ‹_› h
  · rfl
  · rfl

/-- An effect that keeps a property is kept by `whenRunning`. -/
theorem State.whenRunning_keeps {P : State → Prop} {s : State} {f : State → State} (hs : P s)
    (hf : P s → P (f s)) : P (s.whenRunning f) := by
  unfold State.whenRunning
  split
  · exact hf hs
  · exact hs
  · exact hs

/-! ## Counters -/

theorem satAdd_toNat (c : Counter) (n : Nat) : (satAdd c n).toNat = min (2 ^ 32 - 1) (c.toNat + n) := by
  unfold satAdd
  split
  · rename_i h
    rw [BitVec.toNat_ofNat, Nat.mod_eq_of_lt h]
    omega
  · simp
    omega

@[simp] theorem satAdd_zero (c : Counter) : satAdd c 0 = c := by
  apply BitVec.eq_of_toNat_eq
  rw [satAdd_toNat]
  have := c.isLt
  omega

@[simp] theorem saturates_zero (c : Counter) : saturates c 0 = false := by
  have := c.isLt
  simp only [saturates, decide_eq_false_iff_not]
  omega

theorem le_satAdd (c : Counter) (n : Nat) : c.toNat ≤ (satAdd c n).toNat := by
  rw [satAdd_toNat]
  have := c.isLt
  omega

theorem maxTime_toNat (a b : Time) : (maxTime a b).toNat = max a.toNat b.toNat := by
  unfold maxTime
  split <;> omega

@[simp] theorem ClassStats.get_put_same (r : ClassStats) (k : ClassCounter) (v : Counter) :
    (r.put k v).get k = v := by
  cases k <;> simp [ClassStats.put, ClassStats.get]

theorem ClassStats.get_put_other (r : ClassStats) {k k' : ClassCounter} (v : Counter) (h : k' ≠ k) :
    (r.put k v).get k' = r.get k' := by
  cases k <;> cases k' <;> simp_all [ClassStats.put, ClassStats.get]
  rename_i i j
  rw [Vector.getElem_set_ne]
  intro e
  exact h (Fin.ext e.symm)

@[simp] theorem ClassStats.maxHold_put (r : ClassStats) (k : ClassCounter) (v : Counter) :
    (r.put k v).maxHold = r.maxHold := by
  cases k <;> rfl

@[simp] theorem ClassStats.maxMemory_put (r : ClassStats) (k : ClassCounter) (v : Counter) :
    (r.put k v).maxMemory = r.maxMemory := by
  cases k <;> rfl

theorem ClassStats.get_saturated (r : ClassStats) (b : Bool) (k : ClassCounter) :
    ({ r with saturated := b } : ClassStats).get k = r.get k := by
  cases k <;> rfl

@[simp] theorem ClassStats.get_bump_same (r : ClassStats) (k : ClassCounter) (n : Nat) :
    (r.bump k n).get k = satAdd (r.get k) n := by
  exact (ClassStats.get_saturated _ _ k).trans (ClassStats.get_put_same r k _)

theorem ClassStats.get_bump_other (r : ClassStats) {k k' : ClassCounter} (n : Nat) (h : k' ≠ k) :
    (r.bump k n).get k' = r.get k' := by
  exact (ClassStats.get_saturated _ _ k').trans (ClassStats.get_put_other r _ h)

@[simp] theorem ClassStats.maxHold_bump (r : ClassStats) (k : ClassCounter) (n : Nat) :
    (r.bump k n).maxHold = r.maxHold := by
  simp [ClassStats.bump]

@[simp] theorem ClassStats.maxMemory_bump (r : ClassStats) (k : ClassCounter) (n : Nat) :
    (r.bump k n).maxMemory = r.maxMemory := by
  simp [ClassStats.bump]

@[simp] theorem ClassStats.saturated_bump (r : ClassStats) (k : ClassCounter) (n : Nat) :
    (r.bump k n).saturated = (r.saturated || saturates (r.get k) n) := rfl

theorem ClassStats.put_get (r : ClassStats) (k : ClassCounter) : r.put k (r.get k) = r := by
  cases k <;> simp [ClassStats.put, ClassStats.get]

@[simp] theorem ClassStats.bump_zero (r : ClassStats) (k : ClassCounter) : r.bump k 0 = r := by
  simp [ClassStats.bump, ClassStats.put_get]

/-- A counting event of 0 changes nothing (R156, R161). -/
@[simp] theorem State.countClass_zero (s : State) (c : ClassId) (k : ClassCounter) :
    s.countClass c k 0 = s := by
  simp [State.countClass]

/-- Reading a live record after one was replaced. -/
theorem live_set (v : Vector ClassStats 16) (c i : ClassId) (r : ClassStats) :
    (v.set c r)[i] = if i = c then r else v[i] := by
  simp only [Fin.getElem_fin, Vector.getElem_set]
  simp [Fin.ext_iff, eq_comm]

/-- Everything a counting event does to the live counters. -/
theorem State.get_countClass (s : State) (c i : ClassId) (k k' : ClassCounter) (n : Nat) :
    (s.countClass c k n).stats.live[i].get k'
      = if i = c ∧ k' = k then satAdd (s.stats.live[i].get k') n else s.stats.live[i].get k' := by
  rw [State.countClass_stats_live, live_set]
  by_cases h : i = c
  · subst h
    by_cases h' : k' = k
    · subst h'; simp
    · simp [h', ClassStats.get_bump_other _ n h']
  · simp [h]

/-- Everything a counting event does to a saturated flag. -/
theorem State.saturated_countClass (s : State) (c i : ClassId) (k : ClassCounter) (n : Nat) :
    (s.countClass c k n).stats.live[i].saturated
      = (s.stats.live[i].saturated || (decide (i = c) && saturates (s.stats.live[i].get k) n)) := by
  rw [State.countClass_stats_live, live_set]
  by_cases h : i = c
  · subst h; simp
  · simp [h]

@[simp] theorem State.maxHold_countClass (s : State) (c i : ClassId) (k : ClassCounter) (n : Nat) :
    (s.countClass c k n).stats.live[i].maxHold = s.stats.live[i].maxHold := by
  rw [State.countClass_stats_live, live_set]
  by_cases h : i = c
  · subst h; simp
  · simp [h]

@[simp] theorem State.maxMemory_countClass (s : State) (c i : ClassId) (k : ClassCounter) (n : Nat) :
    (s.countClass c k n).stats.live[i].maxMemory = s.stats.live[i].maxMemory := by
  rw [State.countClass_stats_live, live_set]
  by_cases h : i = c
  · subst h; simp
  · simp [h]

/-- A counter that cannot have fallen from its largest value still stands there. -/
theorem eq_allOnes_of_le {a b : Counter} (h : a.toNat ≤ b.toNat) (ha : a = BitVec.allOnes 32) :
    b = BitVec.allOnes 32 := by
  apply BitVec.eq_of_toNat_eq
  have hb := b.isLt
  rw [ha, BitVec.toNat_allOnes] at h
  rw [BitVec.toNat_allOnes]
  omega

theorem satAdd_of_saturates {a : Counter} {n : Nat} (h : saturates a n = true) :
    satAdd a n = BitVec.allOnes 32 := by
  have h : 2 ^ 32 ≤ a.toNat + n := by simpa [saturates] using h
  unfold satAdd
  rw [if_neg (by omega)]

theorem State.CountsKept.refl (s : State) (p : ClassId → ClassCounter → Prop) : s.CountsKept s p :=
  ⟨fun _ _ _ => rfl, fun _ _ => Nat.le_refl _, fun _ h => h, fun _ h => .inl h, id, .inl⟩

theorem State.CountsKept.trans {s t u : State} {p : ClassId → ClassCounter → Prop}
    (h : s.CountsKept t p) (h' : t.CountsKept u p) : s.CountsKept u p where
  kept i k hk := (h'.kept i k hk).trans (h.kept i k hk)
  grows i k := (h.grows i k).trans (h'.grows i k)
  saturated i hi := h'.saturated i (h.saturated i hi)
  newlySaturated i hi := (h'.newlySaturated i hi).elim
    (fun ht => (h.newlySaturated i ht).imp_right fun ⟨k, hk, he⟩ =>
      ⟨k, hk, eq_allOnes_of_le (h'.grows i k) he⟩) .inr
  alert hi := h'.alert (h.alert hi)
  newAlert hi := (h'.newAlert hi).elim
    (fun ht => (h.newAlert ht).imp_right fun ⟨i, k, hk, he⟩ =>
      ⟨i, k, hk, eq_allOnes_of_le (h'.grows i k) he⟩) .inr

theorem State.CountsKept.mono {s t : State} {p q : ClassId → ClassCounter → Prop}
    (h : s.CountsKept t p) (hpq : ∀ i k, p i k → q i k) : s.CountsKept t q where
  kept i k hk := h.kept i k (fun hp => hk (hpq i k hp))
  grows := h.grows
  saturated := h.saturated
  newlySaturated i hi := (h.newlySaturated i hi).imp_right fun ⟨k, hk, he⟩ => ⟨k, hpq i k hk, he⟩
  alert := h.alert
  newAlert hi := (h.newAlert hi).imp_right fun ⟨i, k, hk, he⟩ => ⟨i, k, hpq i k hk, he⟩

/-- What is kept depends on the live records and the SATURATION flag only. -/
theorem State.CountsKept.congr {s s' t t' : State} {p : ClassId → ClassCounter → Prop}
    (h : s.CountsKept t p) (hs : s'.stats.live = s.stats.live)
    (hs' : s'.alerts.saturation = s.alerts.saturation) (ht : t'.stats.live = t.stats.live)
    (ht' : t'.alerts.saturation = t.alerts.saturation) : s'.CountsKept t' p := by
  constructor <;> simp only [hs, hs', ht, ht']
  · exact h.kept
  · exact h.grows
  · exact h.saturated
  · exact h.newlySaturated
  · exact h.alert
  · exact h.newAlert

/-- A counting event keeps every counter but its own. -/
theorem State.CountsKept.countClass (s : State) (c : ClassId) (k : ClassCounter) (n : Nat) :
    s.CountsKept (s.countClass c k n) (fun i k' => i = c ∧ k' = k) where
  kept i k' h := by rw [State.get_countClass, if_neg h]
  grows i k' := by
    rw [State.get_countClass]
    split
    · exact le_satAdd _ n
    · exact Nat.le_refl _
  saturated i h := by rw [State.saturated_countClass, h, Bool.true_or]
  newlySaturated i h := by
    rw [State.saturated_countClass, Bool.or_eq_true, Bool.and_eq_true, decide_eq_true_eq] at h
    refine h.imp_right fun ⟨hi, hs⟩ => ⟨k, ⟨hi, rfl⟩, ?_⟩
    rw [State.get_countClass, if_pos ⟨hi, rfl⟩, satAdd_of_saturates hs]
  alert h := by rw [State.countClass_alerts_saturation, h, Bool.true_or]
  newAlert h := by
    rw [State.countClass_alerts_saturation, Bool.or_eq_true] at h
    refine h.imp_right fun hs => ⟨c, k, ⟨rfl, rfl⟩, ?_⟩
    rw [State.get_countClass, if_pos ⟨rfl, rfl⟩, satAdd_of_saturates hs]

theorem State.MaximaKept.refl (s : State) : s.MaximaKept s := fun _ => ⟨rfl, rfl⟩

theorem State.MaximaKept.trans {s t u : State} (h : s.MaximaKept t) (h' : t.MaximaKept u) :
    s.MaximaKept u :=
  fun i => ⟨(h' i).1.trans (h i).1, (h' i).2.trans (h i).2⟩

theorem State.MaximaKept.countClass (s : State) (c : ClassId) (k : ClassCounter) (n : Nat) :
    s.MaximaKept (s.countClass c k n) :=
  fun i => ⟨s.maxHold_countClass c i k n, s.maxMemory_countClass c i k n⟩

/-! ## Hold entries -/

@[simp] theorem HoldEntry.unflagged_unflagged (e : HoldEntry) : e.unflagged.unflagged = e.unflagged := by
  cases e <;> rfl

theorem HoldEntry.unflagged_eq_free {e : HoldEntry} : e.unflagged = .free ↔ e = .free := by
  cases e <;> simp [HoldEntry.unflagged]

theorem HoldEntry.unflagged_isQueued (e : HoldEntry) : e.unflagged.isQueued = e.isQueued := by
  cases e <;> rfl

theorem HoldEntry.unflagged_isFree (e : HoldEntry) : e.unflagged.isFree = e.isFree := by
  cases e <;> rfl

theorem HoldEntry.unflagged_lines (e : HoldEntry) : e.unflagged.lines = e.lines := by
  cases e <;> rfl

theorem HoldEntry.unflagged_ofClass (c : ClassId) (e : HoldEntry) :
    e.unflagged.ofClass c = e.ofClass c := by
  cases e <;> rfl

theorem HoldEntry.unflagged_hasPair (a : BitVec 6) (b : BitVec 8) (e : HoldEntry) :
    e.unflagged.hasPair a b = e.hasPair a b := by
  cases e <;> rfl

@[simp] theorem HoldEntry.dropMember_isQueued (i : EntryId) (e : HoldEntry) :
    (HoldEntry.dropMember i e).isQueued = e.isQueued := by
  cases e <;> rfl

@[simp] theorem HoldEntry.dropMember_isFree (i : EntryId) (e : HoldEntry) :
    (HoldEntry.dropMember i e).isFree = e.isFree := by
  cases e <;> rfl

@[simp] theorem HoldEntry.dropMember_lines (i : EntryId) (e : HoldEntry) :
    (HoldEntry.dropMember i e).lines = e.lines := by
  cases e <;> rfl

@[simp] theorem HoldEntry.dropMember_ofClass (i : EntryId) (c : ClassId) (e : HoldEntry) :
    (HoldEntry.dropMember i e).ofClass c = e.ofClass c := by
  cases e <;> rfl

@[simp] theorem HoldEntry.dropMember_hasPair (i : EntryId) (a : BitVec 6) (b : BitVec 8) (e : HoldEntry) :
    (HoldEntry.dropMember i e).hasPair a b = e.hasPair a b := by
  cases e <;> rfl

/-- Reading an entry after one was replaced. -/
theorem entries_set (v : Vector HoldEntry 192) (e i : EntryId) (x : HoldEntry) :
    (v.set e x)[i] = if i = e then x else v[i] := by
  simp only [Fin.getElem_fin, Vector.getElem_set]
  simp [Fin.ext_iff, eq_comm]

/-- Reading a queue after one was replaced. -/
theorem queues_set (v : Vector (List EntryId) 16) (c i : ClassId) (q : List EntryId) :
    (v.set c q)[i] = if i = c then q else v[i] := by
  simp only [Fin.getElem_fin, Vector.getElem_set]
  simp [Fin.ext_iff, eq_comm]

/-- Reading a class's budget state after one was replaced. -/
theorem budget_set (v : Vector ClassBudget 16) (c i : ClassId) (b : ClassBudget) :
    (v.set c b)[i] = if i = c then b else v[i] := by
  simp only [Fin.getElem_fin, Vector.getElem_set]
  simp [Fin.ext_iff, eq_comm]

/-- Reading a slot after one was replaced. -/
theorem slots_set (v : Vector Slot 128) (k i : SlotId) (x : Slot) :
    (v.set k x)[i] = if i = k then x else v[i] := by
  simp only [Fin.getElem_fin, Vector.getElem_set]
  simp [Fin.ext_iff, eq_comm]

theorem find?_finRange_eq_some {n : Nat} (p : Fin n → Bool) (e : Fin n) :
    (List.finRange n).find? p = some e ↔ p e = true ∧ ∀ i : Fin n, i < e → p i = false := by
  rw [List.find?_eq_some_iff_getElem]
  constructor
  · rintro ⟨hp, i, hi, he, hlt⟩
    refine ⟨hp, fun j hj => ?_⟩
    have hji : j.val < i := by
      rw [← he] at hj
      simpa [Fin.lt_def] using hj
    simpa using hlt j.val hji
  · rintro ⟨hp, h⟩
    refine ⟨hp, e.val, by simp, by simp, fun j hj => ?_⟩
    have := h ⟨j, by omega⟩ (by simpa [Fin.lt_def] using hj)
    simpa using this

/-- The lowest-numbered FREE entry, as the pool finds it (R20). -/
theorem State.lowestFreeEntry_eq_some (s : State) (e : EntryId) :
    s.lowestFreeEntry = some e ↔ s.IsLowestFree e := by
  rw [State.lowestFreeEntry, find?_finRange_eq_some, State.IsLowestFree]
  constructor
  · rintro ⟨h, h'⟩
    refine ⟨?_, fun i hi he => ?_⟩
    · revert h; cases s.pool.entries[e] <;> simp [HoldEntry.isFree]
    · have := h' i hi; rw [he] at this; simp [HoldEntry.isFree] at this
  · rintro ⟨h, h'⟩
    refine ⟨by rw [h]; rfl, fun i hi => ?_⟩
    have := h' i hi
    revert this; cases s.pool.entries[i] <;> simp [HoldEntry.isFree]

/-- The lowest-numbered FREE slot, as the transit table finds it (R120). -/
theorem State.lowestFreeSlot_eq_some (s : State) (k : SlotId) :
    s.lowestFreeSlot = some k ↔ s.IsLowestFreeSlot k := by
  rw [State.lowestFreeSlot, find?_finRange_eq_some, State.IsLowestFreeSlot]
  constructor
  · rintro ⟨h, h'⟩
    refine ⟨?_, fun i hi he => ?_⟩
    · revert h; cases s.transit.slots[k].state <;> simp [SlotState.isFree]
    · have := h' i hi; rw [he] at this; simp [SlotState.isFree] at this
  · rintro ⟨h, h'⟩
    refine ⟨by rw [h]; rfl, fun i hi => ?_⟩
    have := h' i hi
    revert this; cases s.transit.slots[i].state <;> simp [SlotState.isFree]

theorem State.lowestFreeSlot_isSome (s : State) :
    s.lowestFreeSlot.isSome = true ↔ ∃ k : SlotId, s.transit.slots[k].state = .free := by
  rw [State.lowestFreeSlot, List.find?_isSome]
  constructor
  · rintro ⟨k, -, h⟩
    refine ⟨k, ?_⟩
    revert h; cases s.transit.slots[k].state <;> simp [SlotState.isFree]
  · rintro ⟨k, h⟩
    exact ⟨k, List.mem_finRange k, by rw [h]; rfl⟩

/-! ## Deriving the head conditions anew -/

/-- What deriving head conditions anew may change: waited-for-budget flags, the budget-waits counters and the
saturated flags. -/
structure State.OnlyFlags (s t : State) : Prop where
  frame : t = { s with
    pool.entries := t.pool.entries
    stats.live := t.stats.live
    alerts.saturation := t.alerts.saturation }
  entries : ∀ e : EntryId, t.pool.entries[e].unflagged = s.pool.entries[e].unflagged
  set : ∀ (e : EntryId) (r : HoldRecord), s.pool.entries[e] = .queued r →
    r.waitedForBudget = true → t.pool.entries[e] = .queued r
  counts : s.CountsKept t (fun _ k => k = .budgetWaits)
  maxima : s.MaximaKept t

theorem State.OnlyFlags.refl (s : State) : s.OnlyFlags s :=
  ⟨rfl, fun _ => rfl, fun _ _ h _ => h, State.CountsKept.refl s _, State.MaximaKept.refl s⟩

theorem State.OnlyFlags.trans {s t u : State} (h : s.OnlyFlags t) (h' : t.OnlyFlags u) :
    s.OnlyFlags u where
  frame := by rw [h'.frame, h.frame]
  entries e := (h'.entries e).trans (h.entries e)
  set e r hr hf := h'.set e r (h.set e r hr hf) hf
  counts := h.counts.trans h'.counts
  maxima := h.maxima.trans h'.maxima

/-- Deriving one class's condition sets its head's flag at most. -/
theorem State.noteBudgetWait_onlyFlags (s : State) (c : ClassId) : s.OnlyFlags (s.noteBudgetWait c) := by
  unfold State.noteBudgetWait
  split
  · rename_i e _ _
    split
    · rename_i r hr
      split
      · exact .refl s
      · rename_i hw
        refine ⟨rfl, fun i => ?_, fun i q hq hf => ?_, ?_, ?_⟩
        · simp only [State.countClass_pool, State.setEntry_pool_entries, entries_set]
          split
          · rename_i h; subst h; rw [hr]; rfl
          · rfl
        · simp only [State.countClass_pool, State.setEntry_pool_entries, entries_set]
          split
          · rename_i h; subst h; rw [hr] at hq; cases hq; exact absurd hf hw
          · exact hq
        · exact ((State.CountsKept.countClass s c .budgetWaits 1).mono (fun _ _ h => h.2)).congr
            rfl rfl rfl rfl
        · exact State.MaximaKept.countClass (s.setEntry e _) c .budgetWaits 1
    · exact .refl s
    · exact .refl s
  · exact .refl s

theorem State.foldl_noteBudgetWait_onlyFlags (cs : List ClassId) (s : State) :
    s.OnlyFlags (cs.foldl State.noteBudgetWait s) := by
  induction cs generalizing s with
  | nil => exact .refl s
  | cons c cs ih => exact (s.noteBudgetWait_onlyFlags c).trans (ih _)

/-- Deriving every class's condition anew changes flags and budget-waits counts only. -/
theorem State.noteBudgetWaits_onlyFlags (s : State) : s.OnlyFlags s.noteBudgetWaits :=
  State.foldl_noteBudgetWait_onlyFlags _ s

/-! ## Which heads are noted -/

/-- The head of class `c` is in BUDGET_WAIT, QUEUED, and its flag is clear: what R97 acts on. -/
def State.toNote (s : State) (c : ClassId) : Bool :=
  decide (s.headCondition c = .budgetWait) && (match s.head? c with
    | some e => s.pool.entries[e].isQueued && !s.noted e
    | none => false)

/-- No entry heads two class queues. -/
def State.HeadsDistinct (s : State) : Prop :=
  ∀ (i j : ClassId) (e : EntryId), s.head? i = some e → s.head? j = some e → i = j

/-- Deriving one class's condition anew notes its head where it is to be noted, and does nothing where it
is not. -/
theorem State.noteBudgetWait_eq (s : State) (c : ClassId) :
    (s.toNote c = false ∧ s.noteBudgetWait c = s)
      ∨ ∃ (e : EntryId) (r : HoldRecord), s.toNote c = true ∧ s.head? c = some e
          ∧ s.pool.entries[e] = .queued r
          ∧ s.noteBudgetWait c
            = (s.setEntry e (.queued { r with waitedForBudget := true })).countClass c .budgetWaits 1 := by
  unfold State.noteBudgetWait State.toNote State.noted
  cases hc : s.headCondition c with
  | budgetWait =>
    cases hh : s.head? c with
    | none => exact .inl ⟨by simp, rfl⟩
    | some e =>
      cases he : s.pool.entries[e] with
      | free => left; simp [he, HoldEntry.isQueued]
      | cancelling r => left; simp [he, HoldEntry.isQueued]
      | queued r =>
        cases hw : r.waitedForBudget with
        | true => left; simp [he, hw]
        | false => right; exact ⟨e, r, by simp [he, hw, HoldEntry.isQueued], rfl, he, by simp [he, hw]⟩
  | _ => left; simp

/-- What one class's turn leaves: the heads and their conditions, the flags, and the budget-waits
counters. -/
theorem State.noteBudgetWait_notes (s : State) (c : ClassId) :
    (s.noteBudgetWait c).pool.queues = s.pool.queues
      ∧ (∀ i : ClassId, (s.noteBudgetWait c).headCondition i = s.headCondition i)
      ∧ (∀ e : EntryId, (s.noteBudgetWait c).pool.entries[e].isQueued = s.pool.entries[e].isQueued)
      ∧ (∀ e : EntryId, (s.noteBudgetWait c).noted e
          = (s.noted e || (s.toNote c && decide (s.head? c = some e))))
      ∧ ∀ i : ClassId, (s.noteBudgetWait c).stats.live[i].get .budgetWaits
          = satAdd (s.stats.live[i].get .budgetWaits) (if i = c ∧ s.toNote c = true then 1 else 0) := by
  rcases s.noteBudgetWait_eq c with ⟨hn, hs⟩ | ⟨e, r, hn, hh, he, hs⟩
  · rw [hs, hn]; simp
  · have hent : ∀ i : EntryId, (s.noteBudgetWait c).pool.entries[i]
        = if i = e then .queued { r with waitedForBudget := true } else s.pool.entries[i] := by
      intro i; rw [hs]; exact entries_set _ _ _ _
    have hw : ∀ i : EntryId, (s.noteBudgetWait c).waitListOf i = s.waitListOf i := by
      intro i
      unfold State.waitListOf
      rw [hent]
      by_cases hi : i = e
      · subst hi; rw [if_pos rfl, he]
      · rw [if_neg hi]
    refine ⟨by rw [hs]; rfl, fun i => ?_, fun i => ?_, fun i => ?_, fun i => ?_⟩
    · have hhd : (s.noteBudgetWait c).head? i = s.head? i := by rw [hs]; rfl
      have hb : (s.noteBudgetWait c).budget = s.budget := by rw [hs]; rfl
      have hf : (s.noteBudgetWait c).forwardingOpen = s.forwardingOpen := by rw [hs]; rfl
      unfold State.headCondition
      rw [hhd, hb, hf]
      cases s.head? i with
      | none => rfl
      | some a => simp only [hw a]
    · rw [hent]
      by_cases hi : i = e
      · subst hi; rw [if_pos rfl, he]; rfl
      · rw [if_neg hi]
    · unfold State.noted
      rw [hent, hn, hh]
      by_cases hi : i = e
      · subst hi; simp
      · rw [if_neg hi]; simp [Ne.symm hi]
    · rw [hs, State.get_countClass, hn]
      simp only [and_true]
      split
      · rfl
      · rw [satAdd_zero]; rfl

/-- Everything deriving head conditions anew notes, where no entry heads two queues: a flag is set exactly on
the heads to be noted, and their classes' budget-waits counters rise by one (R97). -/
theorem State.foldl_noteBudgetWait_notes (cs : List ClassId) (s : State) (hd : s.HeadsDistinct)
    (hcs : cs.Nodup) :
    (cs.foldl State.noteBudgetWait s).pool.queues = s.pool.queues
      ∧ (∀ i : ClassId, (cs.foldl State.noteBudgetWait s).headCondition i = s.headCondition i)
      ∧ (∀ e : EntryId, (cs.foldl State.noteBudgetWait s).noted e = true
          ↔ s.noted e = true ∨ ∃ i ∈ cs, s.toNote i = true ∧ s.head? i = some e)
      ∧ ∀ i : ClassId, (cs.foldl State.noteBudgetWait s).stats.live[i].get .budgetWaits
          = satAdd (s.stats.live[i].get .budgetWaits) (if i ∈ cs ∧ s.toNote i = true then 1 else 0) := by
  induction cs generalizing s with
  | nil => simp
  | cons c cs ih =>
    obtain ⟨hq, hc, hi, hn, hb⟩ := s.noteBudgetWait_notes c
    rw [List.nodup_cons] at hcs
    have hh : ∀ i : ClassId, (s.noteBudgetWait c).head? i = s.head? i := by
      intro i; unfold State.head?; rw [hq]
    have hd' : (s.noteBudgetWait c).HeadsDistinct := by
      intro i j e h h'
      rw [hh] at h h'
      exact hd i j e h h'
    have htn : ∀ i : ClassId, i ≠ c → (s.noteBudgetWait c).toNote i = s.toNote i := by
      intro i hic
      unfold State.toNote
      rw [hc, hh]
      cases hhi : s.head? i with
      | none => rfl
      | some e =>
        have : s.head? c ≠ some e := fun h => hic (hd i c e hhi h)
        simp only [hi, hn]
        simp [this]
    obtain ⟨iq, ic, inn, ib⟩ := ih (s.noteBudgetWait c) hd' hcs.2
    rw [List.foldl_cons]
    refine ⟨iq.trans hq, fun i => (ic i).trans (hc i), fun e => ?_, fun i => ?_⟩
    · rw [inn, hn]
      simp only [Bool.or_eq_true, Bool.and_eq_true, decide_eq_true_eq, List.mem_cons, exists_eq_or_imp,
        or_assoc, hh]
      refine or_congr_right (or_congr_right ⟨?_, ?_⟩)
      · rintro ⟨i, hi, h⟩
        rw [htn i (fun h => hcs.1 (h ▸ hi))] at h
        exact ⟨i, hi, h⟩
      · rintro ⟨i, hi, h⟩
        rw [← htn i (fun h => hcs.1 (h ▸ hi))] at h
        exact ⟨i, hi, h⟩
    · rw [ib, hb]
      by_cases hic : i = c
      · subst hic
        simp [hcs.1]
      · rw [htn i hic]
        simp [hic]

/-- Everything deriving the head conditions anew notes (R96, R97). -/
theorem State.noteBudgetWaits_notes (s : State) (hd : s.HeadsDistinct) :
    s.noteBudgetWaits.pool.queues = s.pool.queues
      ∧ (∀ i : ClassId, s.noteBudgetWaits.headCondition i = s.headCondition i)
      ∧ (∀ e : EntryId, s.noteBudgetWaits.noted e = true
          ↔ s.noted e = true ∨ ∃ i : ClassId, s.toNote i = true ∧ s.head? i = some e)
      ∧ ∀ i : ClassId, s.noteBudgetWaits.stats.live[i].budgetWaits
          = satAdd s.stats.live[i].budgetWaits (if s.toNote i = true then 1 else 0) := by
  have hw : s.noteBudgetWaits = (List.finRange 16).foldl State.noteBudgetWait s := rfl
  obtain ⟨h1, h2, h3, h4⟩ :=
    State.foldl_noteBudgetWait_notes (List.finRange 16) s hd (List.nodup_finRange 16)
  rw [← hw] at h1 h2 h3 h4
  generalize s.noteBudgetWaits = t at h1 h2 h3 h4 ⊢
  simp only [List.mem_finRange, true_and] at h3 h4
  exact ⟨h1, h2, h3, h4⟩

/-- In a placement order no entry heads two queues: an entry has one class. -/
theorem State.PlacedInOrder.headsDistinct {s : State} {order : List EntryId}
    (h : s.PlacedInOrder order) : s.HeadsDistinct := by
  have hcls : ∀ (i : ClassId) (e : EntryId), s.head? i = some e →
      s.pool.entries[e].ofClass i = true := by
    intro i e he
    have hm : e ∈ s.pool.queues[i] := List.mem_of_mem_head? he
    rw [h.2.2.1 i, List.mem_filter] at hm
    exact hm.2
  intro i j e hi hj
  have h1 := hcls i e hi
  have h2 := hcls j e hj
  unfold HoldEntry.ofClass at h1 h2
  cases hr : s.pool.entries[e].record? with
  | none => rw [hr] at h1; cases h1
  | some r =>
    rw [hr] at h1 h2
    exact (of_decide_eq_true h1).symm.trans (of_decide_eq_true h2)

/-! ## Placement -/

theorem State.mem_waitListFor (s : State) (r : HoldRecord) (a : EntryId) :
    a ∈ s.waitListFor r ↔
      ∃ ra : HoldRecord, s.pool.entries[a] = .queued ra ∧ r.overlaps ra = true := by
  simp only [State.waitListFor, List.mem_filter, List.mem_finRange, true_and]
  cases s.pool.entries[a] <;> simp

/-- What a placement of the record `r` in entry `e` makes of a state (R20, R42, R47). -/
structure State.Placed (s : State) (e : EntryId) (r : HoldRecord) (t : State) : Prop where
  entry : ∃ flag : Bool, t.pool.entries[e]
    = .queued { r with waitList := s.waitListFor r, waitedForBudget := flag }
  others : ∀ i : EntryId, i ≠ e → t.pool.entries[i].unflagged = s.pool.entries[i].unflagged
  queue : t.pool.queues[r.cls] = s.pool.queues[r.cls] ++ [e]
  queues : ∀ c : ClassId, c ≠ r.cls → t.pool.queues[c] = s.pool.queues[c]
  orderWaits : t.stats.live[r.cls].orderWaits = satAdd s.stats.live[r.cls].orderWaits
    (if s.waitListFor r = [] then 0 else 1)
  counts : s.CountsKept t (fun i k => k = .budgetWaits ∨ (i = r.cls ∧ k = .orderWaits))
  maxima : s.MaximaKept t
  frame : t = { s with
    pool := t.pool
    stats.live := t.stats.live
    alerts.saturation := t.alerts.saturation }

/-- A placement, with the head conditions derived anew. -/
theorem State.placeIn_placed (s : State) (e : EntryId) (r : HoldRecord) :
    s.Placed e r (s.placeIn e r).noteBudgetWaits := by
  have hF := State.noteBudgetWaits_onlyFlags (s.placeIn e r)
  have hcounts : s.CountsKept (s.placeIn e r) (fun i k => i = r.cls ∧ k = .orderWaits) :=
    (State.CountsKept.countClass s r.cls .orderWaits _).congr rfl rfl rfl rfl
  have hent : ∀ i : EntryId, (s.placeIn e r).pool.entries[i] = if i = e then
      .queued { r with waitList := s.waitListFor r, waitedForBudget := false }
      else s.pool.entries[i] := fun i => entries_set _ _ _ _
  have hque : ∀ c : ClassId, (s.placeIn e r).pool.queues[c] = if c = r.cls then
      s.pool.queues[r.cls] ++ [e] else s.pool.queues[c] := fun c => queues_set _ _ _ _
  have hlive : (s.placeIn e r).stats.live[r.cls].get .orderWaits
      = satAdd s.stats.live[r.cls].orderWaits (if s.waitListFor r = [] then 0 else 1) :=
    (State.get_countClass s r.cls r.cls .orderWaits .orderWaits _).trans (if_pos ⟨rfl, rfl⟩)
  have hmax : s.MaximaKept (s.placeIn e r) := State.MaximaKept.countClass s r.cls .orderWaits _
  have hframe : s.placeIn e r = { s with
      pool := (s.placeIn e r).pool
      stats.live := (s.placeIn e r).stats.live
      alerts.saturation := (s.placeIn e r).alerts.saturation } := rfl
  generalize s.placeIn e r = p at hF hcounts hent hque hlive hmax hframe ⊢
  refine ⟨?_, fun i hi => ?_, ?_, fun c hc => ?_, ?_, ?_, ?_, ?_⟩
  · have h := hF.entries e
    rw [hent, if_pos rfl] at h
    generalize p.noteBudgetWaits.pool.entries[e] = x at h ⊢
    cases x with
    | free => cases h
    | cancelling q => cases h
    | queued q =>
      refine ⟨q.waitedForBudget, ?_⟩
      simp only [HoldEntry.unflagged, HoldEntry.queued.injEq] at h
      cases q
      cases h
      rfl
  · rw [hF.entries, hent, if_neg hi]
  · rw [hF.frame]
    exact (hque _).trans (if_pos rfl)
  · rw [hF.frame]
    exact (hque _).trans (if_neg hc)
  · have h := hF.counts.1 r.cls .orderWaits (by simp)
    exact h.trans hlive
  · exact (hcounts.mono (fun _ _ h => .inr h)).trans (hF.counts.mono (fun _ _ h => .inl h))
  · exact hmax.trans hF.maxima
  · rw [hF.frame, hframe]

/-- Offering a request to the pool: placed where the placement test passes, and only there (R20, R27). -/
theorem State.tryPlace_eq (s : State) (r : HoldRecord) :
    (∀ e : EntryId, s.placementTest r.cls r.kind r.data.length = true → s.IsLowestFree e →
        s.tryPlace r = some (s.placeIn e r).noteBudgetWaits)
      ∧ (s.placementTest r.cls r.kind r.data.length = false → s.tryPlace r = none) := by
  constructor
  · intro e h he
    unfold State.tryPlace
    rw [if_pos h, (s.lowestFreeEntry_eq_some e).mpr he]
  · intro h
    unfold State.tryPlace
    rw [if_neg (by simp [h])]

/-- A period boundary changes its class's budget unit, and after that waited-for-budget flags and their counts
only (R82, R85). -/
theorem State.takeBoundary_onlyFlags (s : State) (c : ClassId) (forced : Bool) :
    (s.setBudget c (s.budget[c].boundary forced s.time)).OnlyFlags (s.takeBoundary c forced) :=
  State.noteBudgetWaits_onlyFlags _

/-! ## Discards -/

theorem State.cancelEntry_entry (s : State) (a e : EntryId) :
    (s.cancelEntry a).pool.entries[e]
      = (if e = a then s.pool.entries[e].cancel else s.pool.entries[e]).dropMember a := by
  have hmap : ∀ v : Vector HoldEntry 192, (v.map (HoldEntry.dropMember a))[e] = v[e].dropMember a := by
    intro v; simp
  simp only [State.cancelEntry, State.dropFromWaitLists, State.setEntry, hmap, entries_set]
  split
  · rename_i h
    subst h
    rfl
  · rfl

/-- Discarding a queue changes the hold entries only. -/
theorem State.foldl_cancelEntry_frame (q : List EntryId) (s : State) :
    q.foldl State.cancelEntry s
      = { s with pool.entries := (q.foldl State.cancelEntry s).pool.entries } := by
  induction q generalizing s with
  | nil => rfl
  | cons a q ih => rw [List.foldl_cons, ih]; rfl

/-- What discarding a queue makes of one entry (R34). -/
theorem State.foldl_cancelEntry_entry (q : List EntryId) (s : State) (e : EntryId) :
    (q.foldl State.cancelEntry s).pool.entries[e] = (match s.pool.entries[e] with
      | .free => .free
      | .cancelling r => .cancelling r
      | .queued r =>
        if e ∈ q then .cancelling { r with waitList := [] }
        else .queued { r with waitList := r.waitList.filter (fun a => decide (a ∉ q)) }) := by
  induction q generalizing s with
  | nil => simp only [List.foldl_nil]; cases s.pool.entries[e] <;> simp
  | cons a q ih =>
    rw [List.foldl_cons, ih, s.cancelEntry_entry]
    cases h : s.pool.entries[e] with
    | free => by_cases ha : e = a <;> simp only [ha, if_true, if_false, HoldEntry.cancel, HoldEntry.dropMember]
    | cancelling r =>
      by_cases ha : e = a <;> simp only [ha, if_true, if_false, HoldEntry.cancel, HoldEntry.dropMember]
    | queued r =>
      by_cases ha : e = a
      · simp only [ha, if_true, HoldEntry.cancel, HoldEntry.dropMember, List.mem_cons, true_or]
      · simp only [ha, if_false, HoldEntry.dropMember, List.mem_cons, false_or]
        split
        · rfl
        · congr 2
          rw [List.filter_filter]
          congr 1
          funext x
          by_cases hx : x = a <;> by_cases hq : x ∈ q <;> simp [hx, hq]

/-! ## The transit table -/

theorem State.slots_setSlotState (s : State) (k i : SlotId) (v : SlotState) :
    (s.setSlotState k v).transit.slots[i]
      = if i = k then { epoch := s.transit.slots[k].epoch, state := v } else s.transit.slots[i] := by
  simp only [State.setSlotState, slots_set]

theorem State.slots_mapSlots (s : State) (f : SlotState → SlotState) (k : SlotId) :
    (s.mapSlots f).transit.slots[k]
      = { epoch := s.transit.slots[k].epoch, state := f s.transit.slots[k].state } := by
  simp [State.mapSlots]

/-- The slot and the epoch that a downstream tag names (R13, R120). -/
theorem tag_of_toNat {tag : BitVec 10} {k : SlotId} {e : BitVec 3}
    (h : tag.toNat = 8 * k.val + e.toNat) : tagSlot tag = k ∧ tagEpoch tag = e := by
  have := e.isLt
  have := k.isLt
  constructor
  · apply Fin.ext
    simp only [tagSlot, Fin.ofNat]
    omega
  · apply BitVec.eq_of_toNat_eq
    simp only [tagEpoch, BitVec.toNat_ofNat]
    omega

/-- What a response is judged to be (R14). -/
theorem judgeResponse_eq (r : SlotRecord) (resp : MemResponse) :
    judgeResponse r resp = if resp.status = .okay ∧ resp.data.length = responseLines r then
      (.okay, resp.data) else (.memfault, []) := by
  unfold judgeResponse
  cases resp.status
  · by_cases h : resp.data.length = responseLines r <;> simp [h]
  · simp

/-! ## Incidents -/

/-- Raising an incident changes the incident queue only. -/
theorem State.raise_frame (s : State) (body : IncidentBody) :
    s.raise body = { s with incidents := (s.raise body).incidents } := by
  unfold State.raise
  split <;> rfl

/-- What raising an incident makes of the queue depends on the queue and the time only (R171). -/
theorem State.raise_incidents_congr {s t : State} (hi : s.incidents = t.incidents)
    (ht : s.time = t.time) (body : IncidentBody) :
    (s.raise body).incidents = (t.raise body).incidents := by
  unfold State.raise
  rw [hi, ht]
  split <;> rfl

/-! ## The response channel and the quiesce -/

/-- Everything a choice of the response channel can do (R150). -/
theorem State.chooseOffer_eq (s : State) :
    s.chooseOffer = { s with ret.channel := s.chooseOffer.ret.channel }
      ∧ (s.ret.channel ≠ .idle ∨ s.ret.link = .down → s.chooseOffer = s)
      ∧ (s.ret.channel = .idle → s.ret.link = .up → s.chooseOffer.ret.channel
          = if s.ret.register.isMatched = true then
              if s.ret.answers = [] ∨ s.ret.turn = .real then .real else .answer
            else if s.ret.answers = [] then .idle else .answer) := by
  refine ⟨?_, ?_, ?_⟩
  · unfold State.chooseOffer
    split
    · split <;> rfl
    · rfl
  · intro h
    unfold State.chooseOffer
    split
    · simp_all
    · rfl
  · intro h h'
    unfold State.chooseOffer
    rw [h, h']
    cases hm : s.ret.register.isMatched <;> cases hl : s.ret.answers <;> cases ht : s.ret.turn <;>
      simp_all

/-- The channel's choice in one line: what the statements call the channel after the event (R150). -/
theorem State.chooseOffer_channelAfter (s : State) :
    s.chooseOffer = { s with ret.channel := s.channelAfter s.ret.channel } := by
  obtain ⟨hframe, hstays, hchoice⟩ := s.chooseOffer_eq
  unfold State.channelAfter
  by_cases h : s.ret.channel ≠ .idle ∨ s.ret.link = .down
  · rw [hstays h, if_pos h]
  · have hi : s.ret.channel = .idle := by
      by_cases hc : s.ret.channel = .idle
      · exact hc
      · exact absurd (.inl hc) h
    have hl : s.ret.link = .up := by
      cases hc : s.ret.link
      · exact absurd (.inr hc) h
      · rfl
    rw [hframe, hchoice hi hl, if_neg h]

/-- What the channel may offer depends on the fabric link, the register, the answer list and the turn. -/
theorem State.channelAfter_congr {s t : State} (hl : s.ret.link = t.ret.link)
    (hr : s.ret.register = t.ret.register) (ha : s.ret.answers = t.ret.answers)
    (ht : s.ret.turn = t.ret.turn) (before : ResponseChannel) :
    s.channelAfter before = t.channelAfter before := by
  unfold State.channelAfter
  rw [hl, hr, ha, ht]

/-- After a choice the channel is what the state after it says. -/
theorem State.chooseOffer_ret_channel (s : State) (before : ResponseChannel)
    (h : s.ret.channel = before) : s.chooseOffer.ret.channel = s.chooseOffer.channelAfter before := by
  rw [State.chooseOffer_channelAfter, ← h]
  exact State.channelAfter_congr rfl rfl rfl rfl _

/-- Everything a completion of a quiesce can do (R113). -/
theorem State.completeQuiesce_eq (s : State) :
    (s.arbiter.quiesce = .quiescing ∧ s.countSlots SlotState.isInFlight = 0 →
        s.completeQuiesce = { s with
          arbiter.quiesce := .quiesced
          port.status.state := .done
          alerts.quiesce := true })
      ∧ (s.arbiter.quiesce ≠ .quiescing ∨ s.countSlots SlotState.isInFlight ≠ 0 →
          s.completeQuiesce = s) := by
  constructor
  · rintro ⟨h, h'⟩
    simp [State.completeQuiesce, h, h']
  · intro h
    unfold State.completeQuiesce
    split <;> simp_all

end Sys2Proof.Machine
end

