-- ==== Sys2Proof/Tests/Slice0.lean ====
section
/-! SUPPORT. Tests of one event each, their expected values worked out by hand from the rules of spec/; the
smoke tests of WellFormed; and, for every statement with hypotheses, states that meet them. -/

namespace Sys2Proof.Tests

set_option Elab.async false

open Sys2Proof Sys2Proof.Machine

/-! ## The states the tests start from -/

/-- The next state of a command. -/
def after (c : Instr) (s : State) : State :=
  match exec c s with
  | .next t => t
  | .fault _ => s
  | .refused _ => s

/-- Both links UP, four credits, at 1000 µs. -/
def ready : State := { State.reset with time := 1000, ret.link := .up, mem := ⟨.up, 4, 4⟩ }

/-- A write of the lines 1 and 2 of page 1. -/
def writeRequest : FabricRequest := ⟨5, 9, 2, 0x1040, 2, [0xAA, 0xBB]⟩

/-- The write as a hold record of class 0. -/
def writeRecord : HoldRecord :=
  { source := 5, tag := 9, cls := 0, kind := .write, address := 0x1040, length := 2, arrival := 990
    data := [0xAA, 0xBB], waitList := [], waitedForBudget := false }

/-- A read of the line 2 of page 1, of class 1, that waits on the write. -/
def readRecord : HoldRecord :=
  { source := 6, tag := 1, cls := 1, kind := .read, address := 0x1080, length := 1, arrival := 995
    data := [], waitList := [0], waitedForBudget := false }

/-- The write in entry 0 and the read in entry 1. -/
def held : State :=
  { ready with
    pool :=
      { entries := (ready.pool.entries.set 0 (.queued writeRecord)).set 1 (.queued readRecord)
        queues := (ready.pool.queues.set 0 [0]).set 1 [1] } }

/-- A read of class 2 as a transit record: forwarded at 400 µs with a deadline of 600 µs and the guard
`guard`. -/
def flight (guard : Byte) : SlotRecord :=
  { source := 5, tag := 9, cls := 2, kind := .read, address := 0x2000, length := 1, arrival := 100
    forwardTime := 400, deadline := 600, guard := guard }

/-- Slot 5 in the state given, its epoch 3. -/
def inSlot (st : SlotState) : State :=
  { ready with transit := { slots := ready.transit.slots.set 5 ⟨3, st⟩, order := [5] } }

/-- Slot 5 in flight under the guard given. -/
def flying (guard : Byte) : State := inSlot (.inFlight (flight guard) (some 1000) false)

/-- An OKAY response of one line to slot 5, epoch 3. -/
def response : MemResponse := ⟨43, .okay, [0xCC]⟩

/-- The response in the return register, slot 5 in the state given. -/
def toMatch (st : SlotState) : State := { inSlot st with ret.register := .unmatched response }

/-- The matched real response of slot 5. -/
def matchedRead : RealResponse := ⟨5, 9, .okay, [0xCC], 2, 100, .completion⟩

/-- A write STALLED since 900 µs. -/
def stalledWrite : StalledRequest :=
  { source := 5, tag := 9, cls := 0, kind := .write, address := 0x1040, length := 2, arrival := 900
    data := [0xAA, 0xBB], stallStart := 900, reported := false }

/-- The intake STALLED, with a stall limit of 100 µs. -/
def stalled : State := { ready with intake := ⟨.stalled stalledWrite, 100⟩ }

/-- A METER settings record of budget 10 and burst 5. -/
def meter : Settings := { Settings.reset with mode := 1, budget := 10, burst := 5 }

/-- Class 3 under METER with account −3, its boundary due. -/
def metered : State := ready.setBudget 3 ⟨meter, meter, false, -3, 0⟩

/-- Class 3 with a staged limit that check 3 refuses. -/
def unfit : State := ready.setBudget 3 ⟨{ meter with limit := 193 }, meter, false, 0, 0⟩

/-- Class 0 held to one entry, which the write holds. -/
def full : State :=
  held.setBudget 0 ⟨Settings.reset, { Settings.reset with limit := 1 }, false, 0, 0⟩

/-- A quiesce in QUIESCING while slot 5 is in flight. -/
def quiescing : State :=
  { flying 0 with arbiter.quiesce := .quiescing, port.status := ⟨.running, 1, 0, .none, 1, 0, 0⟩ }

/-- Quiesced, with nothing held. -/
def quiesced : State := { ready with arbiter.quiesce := .quiesced, alerts.quiesce := true }

/-- A write transfer at the offset given. -/
def writingAt (offset : BitVec 16) : State := { ready with port.bus := .writing, port.offset := offset }

/-- A read transfer at the offset given. -/
def readingAt (offset : BitVec 16) : State := { ready with port.bus := .reading, port.offset := offset }

/-- One record in the incident queue. -/
def incident : Incident := ⟨7, 500, plainIncident .fabricLinkUp 0, 0⟩

/-- The incident queue with one record. -/
def reported : State := { ready with incidents := ⟨[incident], 0, 8, false⟩ }

/-- A match entry for source 5, pages 1 to 2, reads and writes, class 7. -/
def rule : MatchEntry := ⟨true, true, true, false, 5, 5, 7, 1, 2⟩

/-- Class 0 under METER with an empty account. -/
def starved : State := ready.setBudget 0 ⟨meter, meter, false, 0, 0⟩

/-- One bit on the bus: SDA set while SCL is low, then a high phase of SCL. -/
def bitLevels (x : Bool) : List BusLevels := [⟨false, x⟩, ⟨true, x⟩, ⟨false, x⟩]

/-- The nine bits of a byte, most significant first, the last low where it is acknowledged. -/
def byteLevels (b : Nat) (acknowledged : Bool) : List BusLevels :=
  ([128, 64, 32, 16, 8, 4, 2, 1].map (fun w => decide (b / w % 2 = 1)) ++ [!acknowledged]).flatMap
    bitLevels

/-- A START from both lines high. -/
def startLevels : List BusLevels := [⟨true, true⟩, ⟨true, false⟩, ⟨false, false⟩]

/-- A STOP: SCL high, then SDA rising. -/
def stopLevels : List BusLevels := [⟨false, false⟩, ⟨true, false⟩, ⟨true, true⟩]

/-! ## WellFormed refuses what no sender can make -/

theorem test_wellFormed_request :
    (Instr.fabricRequestArrival ⟨5, 9, 2, 0, 1, List.replicate 32 0⟩).wellFormed = false
      ∧ (Instr.fabricRequestArrival ⟨5, 9, 2, 0, 1, List.replicate 31 0⟩).wellFormed = true := by
  decide +kernel

theorem test_wellFormed_response :
    (Instr.memoryResponseTaken ⟨43, .okay, List.replicate 17 0⟩).wellFormed = false
      ∧ (Instr.memoryResponseTaken ⟨43, .okay, List.replicate 16 0⟩).wellFormed = true := by
  decide +kernel

theorem test_wellFormed_setting :
    (Instr.stagedSettingWrite 0 .limit 256).wellFormed = false
      ∧ (Instr.stagedSettingWrite 0 .limit 255).wellFormed = true
      ∧ (Instr.stagedSettingWrite 0 .period 256).wellFormed = true := by decide +kernel

theorem test_wellFormed_code :
    (Instr.unknownCommandCode 12 0).wellFormed = false
      ∧ (Instr.unknownCommandCode 13 0).wellFormed = true
      ∧ (Instr.unknownCommandCode 0 0).wellFormed = true := by decide +kernel

/-! ## Reset, time and the links -/

theorem test_powerOnReset_clears_the_pool :
    (after .powerOnReset held).pool.entries[0] = .free ∧ (after .powerOnReset held).phase = .powerOn := by
  decide +kernel

theorem test_resetN_is_filtered_below_1us :
    (after (.resetNAssertion 999) held).time = 1000
      ∧ (after (.resetNAssertion 1000) held).cause = ⟨.resetPin, .powerOn, 1⟩ := by decide +kernel

theorem test_resetEnd_samples_the_straps :
    (after (.resetEnd 2) { ready with phase := .pin }).port.straps = 2 := by decide +kernel

theorem test_timeCountAdvance_wraps :
    (after .timeCountAdvance { ready with time := 0xFFFFFFFF }).time = 0 := by decide +kernel

theorem test_fabricLinkUp_raises :
    ((after .fabricLinkUp State.reset).incidents.records.map
      fun i => (incidentCode i.body.kind, i.sequence)) = [(11, 0)] := by decide +kernel

theorem test_fabricLinkDown_counts_the_freed_entries :
    (after .fabricLinkDown held).stats.globals.lostOnFabricDown = 2
      ∧ (after .fabricLinkDown held).pool.queues[1] = [] := by decide +kernel

theorem test_memoryLinkUp_waits_for_the_grant :
    (after .memoryLinkUp State.reset).mem = ⟨.waitGrant, 0, 0⟩ := by decide +kernel

theorem test_memoryLinkDown_loses_the_flight :
    (after .memoryLinkDown (flying 0)).ret.answers = [.slot 5]
      ∧ (after .memoryLinkDown (flying 0)).stats.globals.lostOnMemoryDown = 1 := by decide +kernel

theorem test_creditGrant_of_64 :
    (after (.creditGrant 63) { ready with mem := ⟨.waitGrant, 0, 0⟩ }).mem = ⟨.up, 64, 64⟩ := by
  decide +kernel

theorem test_creditReturn_clamps :
    (after (.creditReturn 1) { ready with mem := ⟨.up, 4, 3⟩ }).mem.available = 4
      ∧ (after (.creditReturn 1) { ready with mem := ⟨.up, 4, 3⟩ }).stats.globals.creditExcess = 1 := by
  decide +kernel

/-! ## The intake -/

theorem test_arrival_waits_on_the_overlapping_write :
    (after (.fabricRequestArrival ⟨7, 2, 3, 0x1080, 1, [0xDD]⟩) held).waitListOf 2 = [0, 1] := by
  decide +kernel

theorem test_arrival_of_seventeen_lines_is_malformed :
    (after (.fabricRequestArrival ⟨7, 2, 1, 0, 17, []⟩) ready).intake.register
      = .rejecting 7 2 .malformed := by decide +kernel

theorem test_placementRetry_charges_the_stall :
    (after .placementRetry stalled).stats.live[0].stallTime = 100
      ∧ (after .placementRetry stalled).pool.entries[0].hasPair 5 9 = true := by decide +kernel

theorem test_intakeStall_reports_once :
    (after .intakeStall stalled).incidents.records.length = 1
      ∧ (after .intakeStall (after .intakeStall stalled)).incidents.records.length = 1 := by
  decide +kernel

/-! ## Budgets, forwarding and the transit table -/

theorem test_periodBoundary_replenishes :
    (after (.periodBoundary 3) metered).budget[3].account = 7 := by decide +kernel

theorem test_periodBoundary_not_due :
    (after (.periodBoundary 3) { metered with time := 999 }).budget[3].account = -3 := by decide +kernel

theorem test_forwarding_advances_the_epoch :
    (after .forwarding held).arbiter.channel.map (fun m => m.tag) = some 1
      ∧ (after .forwarding held).waitListOf 1 = [] := by decide +kernel

theorem test_forwarding_waits_for_the_channel :
    (after .forwarding (after .forwarding held)).pool.entries[1].isQueued = true := by decide +kernel

theorem test_sendCompletion_idles_the_channel :
    (after .sendCompletion (after .forwarding held)).arbiter.channel = none := by decide +kernel

theorem test_deadlineExpiry_answers :
    (after (.deadlineExpiry 5) (flying 1)).transit.slots[5] = ⟨3, .expired (flight 1) true⟩ := by
  decide +kernel

theorem test_deadlineExpiry_watches :
    (after (.deadlineExpiry 5) (flying 0)).transit.slots[5]
      = ⟨3, .inFlight (flight 0) (some 1000) true⟩ := by decide +kernel

theorem test_memoryResponseTaken :
    (after (.memoryResponseTaken response) ready).ret.register = .unmatched response := by decide +kernel

theorem test_match_completes :
    (after .matchResponse (toMatch (.inFlight (flight 0) none false))).ret.register = .matched matchedRead
      ∧ (after .matchResponse (toMatch (.inFlight (flight 0) none false))).stats.live[2].maxMemory
        = 600 := by decide +kernel

theorem test_match_of_a_free_slot_is_stray :
    (after .matchResponse (toMatch .free)).stats.globals.stray = 1 := by decide +kernel

theorem test_quiesceCompletion :
    (after .quiesceCompletion { ready with arbiter.quiesce := .quiescing }).arbiter.quiesce = .quiesced := by
  decide +kernel

theorem test_realResponseLeaves_enters_the_histogram :
    ((after .realResponseLeaves
      { ready with ret.register := .matched matchedRead, ret.channel := .real }).stats.live[2].bins[7])
      = 1 := by decide +kernel

theorem test_answerLeaves_frees_the_lost_slot :
    (after .answerLeaves { inSlot (.lost (flight 0)) with
        ret.answers := [.slot 5], ret.channel := .answer }).transit.slots[5] = ⟨3, .free⟩ := by
  decide +kernel

/-! ## The management port -/

theorem test_autoSnapshotExpiry :
    (after .autoSnapshotExpiry { ready with stats.autoInterval := 1 }).stats.bank.interval = 1000 := by
  decide +kernel

theorem test_i2cAddress :
    (after (.i2cAddress 0x5A .write) { ready with port.straps := 2 }).port.bus = .awaitOffset
      ∧ (after (.i2cAddress 0x58 .write) { ready with port.straps := 2 }).port.ack = false := by
  decide +kernel

/-- Two offset bytes to 0x58, a repeated START, and a read of two bytes. -/
theorem test_bus_offset_then_read :
    busTraffic 0x58 (startLevels ++ byteLevels 0xB0 true ++ byteLevels 0x08 true ++ byteLevels 0x02 true
        ++ [⟨false, true⟩] ++ startLevels ++ byteLevels 0xB1 true ++ byteLevels 0xFF true
        ++ byteLevels 0x00 false ++ stopLevels)
      = [.i2cAddress 0x58 .write, .offsetWrite 0x08 0x02, .transferEnd, .i2cAddress 0x58 .read, .fieldLatch,
        .fieldLatch, .transferEnd] := by decide +kernel

/-- A STOP after four bits of a window byte drops it, and another address spells no byte. -/
theorem test_bus_drops_a_byte_in_progress :
    busTraffic 0x58 (startLevels ++ byteLevels 0xB0 true ++ byteLevels 0x00 true ++ byteLevels 0x12 true
        ++ [true, false, true, false].flatMap bitLevels ++ stopLevels ++ startLevels
        ++ byteLevels 0xB2 false ++ byteLevels 0x77 false ++ stopLevels)
      = [.i2cAddress 0x58 .write, .offsetWrite 0x00 0x12, .transferEnd, .i2cAddress 0x59 .write,
        .transferEnd] := by decide +kernel

theorem test_offsetWrite_high_byte_first :
    (after (.offsetWrite 0x08 0x02) { ready with port.bus := .awaitOffset }).port.offset = 0x0802 := by
  decide +kernel

theorem test_transferEnd_discards_the_assembly :
    (after .transferEnd { writingAt 0x13 with
      port.assembly := some (.stallLimit, [1]) }).port.assembly = none := by decide +kernel

theorem test_windowWrite_takes_effect_whole :
    (after (.windowWrite 1) (writingAt 0x12)).intake.stallLimit = 0
      ∧ (after (.windowWrite 2) (after (.windowWrite 1) (writingAt 0x12))).intake.stallLimit = 0x0201 := by
  decide +kernel

theorem test_fieldLatch_reads_the_vendor_code :
    (after .fieldLatch (readingAt 0)).port.sent = 0xC3
      ∧ (after .fieldLatch (after .fieldLatch (readingAt 0))).port.sent = 0x05 := by decide +kernel

theorem test_fieldLatch_marks_and_removes_the_head :
    (after .fieldLatch { reported with port.bus := .reading, port.offset := 0x90 }).incidents.headMark = true
      ∧ (after .fieldLatch { reported with
          port.bus := .reading, port.offset := 0xA6, incidents.headMark := true }).incidents.records = [] := by
  decide +kernel

theorem test_incidentHeadLatch_marks :
    (after .incidentHeadLatch reported).incidents.headMark = true
      ∧ (after .incidentHeadLatch reported).port.sent = 7 := by decide +kernel

theorem test_incidentHeadRemove_needs_the_mark :
    (after .incidentHeadRemove reported).incidents.records.length = 1
      ∧ (after .incidentHeadRemove (after .incidentHeadLatch reported)).incidents.records = [] := by
  decide +kernel

theorem test_stagedSettingWrite :
    (after (.stagedSettingWrite 3 .priority 2) metered).budget[3].staged.priority = 2 := by decide +kernel

theorem test_shadowEntryWrite :
    (after (.shadowEntryWrite 23 rule) ready).map.bankB[23] = rule := by decide +kernel

theorem test_defaultClassWrite_uses_low_bits :
    (after (.defaultClassWrite 0xF5) ready).map.defaultClass = 5 := by decide +kernel

theorem test_stallLimitWrite_compares_at_once :
    (after (.stallLimitWrite 50) { stalled with intake.stallLimit := 0 }).incidents.records.map
      (fun i => i.body.detail) = [100] := by decide +kernel

theorem test_autoSnapshotIntervalWrite_starts_the_timer :
    (after (.autoSnapshotIntervalWrite 1) ready).stats.timerStart = 1000 := by decide +kernel

theorem test_histogramBoundariesWrite_rejects_the_first_that_fails :
    (after (.histogramBoundariesWrite #v[1, 2, 2, 8, 16, 32, 64]) ready).incidents.records.map
      (fun i => i.body.detail) = [0x0301] := by decide +kernel

theorem test_alertFlagsWrite_ignores_the_incident_flag :
    (after (.alertFlagsWrite 0x05) { reported with alerts.quiesce := true }).alerts.quiesce = false
      ∧ (after (.alertFlagsWrite 0x05) reported).incidentFlag = true := by decide +kernel

theorem test_alertEnablesWrite_drives_alert :
    (after (.alertEnablesWrite 0x01) reported).alertLow = true
      ∧ (after (.alertEnablesWrite 0x0E) reported).alertLow = false := by decide +kernel

/-! ## Commands of the command register -/

theorem test_quiesce_waits_for_the_flight :
    (after (.quiesce 0) (flying 0)).port.status = ⟨.running, 1, 0, .none, 1, 0, 0⟩ := by decide +kernel

theorem test_resume_is_taken_while_running :
    (after (.resume 0) quiescing).arbiter.quiesce = .opened := by decide +kernel

theorem test_mapSwap : (after (.mapSwap 0) ready).map.active = .b := by decide +kernel

theorem test_classCommit_shows_the_time_to_the_boundary :
    (after (.classCommit 3) { metered with time := 400 }).port.status.detail = 600 := by decide +kernel

theorem test_classCommit_runs_the_checks_in_order :
    (after (.classCommit 3) (metered.setBudget 3
      ⟨{ meter with period := 0, limit := 0 }, meter, false, 0, 0⟩)).port.status
      = ⟨.refused, 4, 3, .invalidSettings, 2, 0, 0⟩ := by decide +kernel

theorem test_classApply_forces_a_boundary :
    (after (.classApply 3) (ready.setBudget 3 ⟨meter, Settings.reset, false, 0, 0⟩)).budget[3]
      = ⟨meter, meter, false, 10, 1000⟩ := by decide +kernel

theorem test_classDiscard_cancels :
    (after (.classDiscard 0) held).waitListOf 1 = []
      ∧ (after (.classDiscard 0) held).ret.answers = [.entry 0] := by decide +kernel

theorem test_purge_counts :
    (after (.purge 0) (inSlot (.expired (flight 1) false))).port.status.detail = 1 := by decide +kernel

theorem test_snapshot_refused_when_locked :
    (after (.snapshot 0) { ready with stats.bank.state := .locked }).port.status.reason = .bankLocked := by
  decide +kernel

theorem test_snapshotRelease_refused_when_empty :
    (after (.snapshotRelease 0) ready).port.status.reason = .bankEmpty := by decide +kernel

theorem test_statsClear_starts_the_interval :
    (after (.statsClear 0) ready).stats.intervalStart = 1000 := by decide +kernel

theorem test_incidentsClear_keeps_the_sequence :
    (after (.incidentsClear 0) reported).incidents = ⟨[], 0, 8, false⟩ := by decide +kernel

theorem test_defaults_needs_quiesced :
    (after (.defaults 0) ready).port.status.reason = .notQuiesced
      ∧ (after (.defaults 0) quiesced).budget[9].lastBoundary = 1000 := by decide +kernel

theorem test_unknownCommandCode :
    (after (.unknownCommandCode 13 0) ready).port.status = ⟨.refused, 13, 0, .badArgument, 1, 0, 0⟩ := by
  decide +kernel

/-! ## Witnesses: states and operands that meet the hypotheses of the statements, clause by clause -/

/-- The state with one command waiting. -/
def queued (c : Instr) (s : State) : State := { s with pending := [c] }

/-- A LOST slot whose answer is on offer. -/
def lostOnOffer : State :=
  { inSlot (.lost (flight 0)) with ret.answers := [.slot 5], ret.channel := .answer }

theorem reset_entries (e : EntryId) : State.reset.pool.entries[e] = .free := by
  change (Vector.replicate 192 HoldEntry.free)[e] = .free
  simp

theorem reset_slots (k : SlotId) : State.reset.transit.slots[k] = ⟨0, .free⟩ := by
  change (Vector.replicate 128 (⟨0, .free⟩ : Slot))[k] = ⟨0, .free⟩
  simp

theorem held_entries (e : EntryId) : e = 0 ∨ e = 1 ∨ held.pool.entries[e] = .free := by
  revert e; decide +kernel

theorem held_write : held.pool.entries[(0 : EntryId)] = .queued writeRecord := by decide +kernel

theorem held_read : held.pool.entries[(1 : EntryId)] = .queued readRecord := by decide +kernel

theorem writeRecord_sound : writeRecord.Sound := by
  unfold HoldRecord.Sound; decide +kernel

theorem readRecord_sound : readRecord.Sound := by
  unfold HoldRecord.Sound; decide +kernel

theorem held_requestsSound : held.RequestsSound := by
  constructor
  · intro e r h
    rcases held_entries e with rfl | rfl | he
    · rw [held_write] at h; cases h; exact writeRecord_sound
    · rw [held_read] at h; cases h; exact readRecord_sound
    · rw [he] at h; cases h
  · intro q h; cases h

theorem held_placed : held.PlacedInOrder [0, 1] := by
  refine ⟨by decide, by decide +kernel, by decide +kernel, ?_⟩
  intro b rb h a
  rcases held_entries b with rfl | rfl | hb
  · rw [held_write] at h; cases h
    rcases held_entries a with rfl | rfl | ha
    · exact ⟨fun h => (by cases h), fun h => absurd h.1 (by decide)⟩
    · exact ⟨fun h => (by cases h), fun h => absurd h.1 (by decide)⟩
    · exact ⟨fun h => (by cases h), fun ⟨_, ra, hra, _⟩ => (by rw [ha] at hra; cases hra)⟩
  · rw [held_read] at h; cases h
    rcases held_entries a with rfl | rfl | ha
    · exact ⟨fun _ => ⟨by decide, writeRecord, held_write, by decide +kernel⟩, fun _ => .head _⟩
    · exact ⟨fun h => absurd h (by decide), fun h => absurd h.1 (by decide)⟩
    · refine ⟨fun h => ?_, fun ⟨_, ra, hra, _⟩ => (by rw [ha] at hra; cases hra)⟩
      rw [List.mem_singleton.mp h] at ha
      rw [held_write] at ha; cases ha
  · rw [hb] at h; cases h

theorem lostOnOffer_slots (k : SlotId) : k = 5 ∨ lostOnOffer.transit.slots[k].state = .free := by
  revert k; decide +kernel

theorem lostOnOffer_placed : lostOnOffer.PlacedInOrder [] := by
  have he : ∀ e : EntryId, lostOnOffer.pool.entries[e] = .free := reset_entries
  refine ⟨by decide, fun e => ?_, by decide +kernel, fun b rb h => ?_⟩
  · rw [he e]; simp [HoldEntry.isQueued]
  · rw [he b] at h; cases h

theorem lostOnOffer_answersSound : lostOnOffer.AnswersSound := by
  refine ⟨by decide, fun o => ?_⟩
  cases o with
  | intake => decide +kernel
  | entry e => revert e; decide +kernel
  | slot k => revert k; decide +kernel

theorem flying_slots (k : SlotId) :
    (flying 0).transit.slots[k].state = .inFlight (flight 0) (some 1000) false
      ∨ (flying 0).transit.slots[k].state = .free := by
  revert k; decide +kernel

theorem witness_StepRunsFrontCommand :
    (queued .forwarding held).pending = .forwarding :: [] ∧ held.pending = [] := ⟨rfl, rfl⟩

theorem witness_ResetsTakeResetValues :
    held.phase = .running ∧ 1000 ≤ 1000 ∧ 999 < 1000 ∧ { held with phase := .pin }.phase ≠ .running
      ∧ Instr.timeCountAdvance ≠ .powerOnReset
      ∧ ∀ p : BitVec 2, Instr.timeCountAdvance ≠ .resetEnd p := by
  decide +kernel

theorem witness_BufferKept :
    (queued .forwarding held).BufferSound
      ∧ ∃ t : State, step (queued .forwarding held) = .next t :=
  ⟨⟨held_requestsSound, by decide +kernel⟩, _, rfl⟩

theorem witness_PlacementOrderKept :
    (queued .forwarding held).PlacedInOrder [0, 1]
      ∧ ∃ t : State, step (queued .forwarding held) = .next t :=
  ⟨held_placed, _, rfl⟩

theorem witness_BudgetUnitKept :
    (∃ t : State, step (queued .forwarding held) = .next t) ∧ (queued .forwarding held).SettingsSound
      ∧ (queued .forwarding held).HeadsNoted := by
  refine ⟨⟨_, rfl⟩, ⟨?_, by decide +kernel⟩, fun c e r h => ?_⟩
  · unfold Settings.Valid; decide +kernel
  · have : ∀ c : ClassId, (queued .forwarding held).headCondition c ≠ .budgetWait := by decide +kernel
    exact absurd h (this c)

theorem witness_AccountsKept :
    (queued .forwarding held).AccountsSound
      ∧ ∃ t : State, step (queued .forwarding held) = .next t :=
  ⟨⟨held_requestsSound, by decide +kernel⟩, _, rfl⟩

theorem witness_CreditsKept :
    (queued .forwarding held).CreditsSound
      ∧ ∃ t : State, step (queued .forwarding held) = .next t :=
  ⟨⟨by decide, by decide, by decide⟩, _, rfl⟩

theorem witness_FlightRecordsKept :
    (∃ t : State, step (queued (.deadlineExpiry 5) (flying 0)) = .next t)
      ∧ (queued (.deadlineExpiry 5) (flying 0)).DeadlinesSound
      ∧ (queued (.deadlineExpiry 5) (flying 0)).OrderSound := by
  refine ⟨⟨_, rfl⟩, fun k r d o h => ?_, by decide, by decide +kernel⟩
  change (flying 0).transit.slots[k].state = _ at h
  rcases flying_slots k with hk | hk <;> rw [hk] at h <;> cases h
  exact ⟨by decide, by decide⟩

theorem witness_OneObligationPerPair :
    (queued .placementRetry stalled).ObligationsSound
      ∧ (∃ t : State, step (queued .placementRetry stalled) = .next t)
      ∧ exec (.fabricRequestArrival writeRequest) ready
        = .next (after (.fabricRequestArrival writeRequest) ready)
      ∧ ready.openObligations 5 9 < (after (.fabricRequestArrival writeRequest) ready).openObligations 5 9 := by
  refine ⟨fun source tag => ?_, ⟨_, rfl⟩, rfl, by decide +kernel⟩
  have hp : stalled.pool.entries = Vector.replicate 192 .free := rfl
  have ht : stalled.transit.slots = Vector.replicate 128 ⟨0, .free⟩ := rfl
  change stalled.openObligations source tag ≤ 1
  unfold State.openObligations
  rw [hp, ht, Vector.toList_replicate, Vector.toList_replicate, List.countP_replicate,
    List.countP_replicate]
  have hi := Bool.toNat_le (stalled.intake.register.hasPair source tag)
  simpa [HoldEntry.hasPair, HoldEntry.record?, SlotState.hasPair, stalled, ready, State.reset,
    ReturnRegister.hasPair] using hi

theorem witness_AnswerListKept :
    (queued .answerLeaves lostOnOffer).PlacedInOrder [] ∧ (queued .answerLeaves lostOnOffer).OrderSound
      ∧ (queued .answerLeaves lostOnOffer).AnswersSound
      ∧ ∃ t : State, step (queued .answerLeaves lostOnOffer) = .next t :=
  ⟨lostOnOffer_placed, ⟨by decide, by decide +kernel⟩, lostOnOffer_answersSound, _, rfl⟩

theorem witness_FabricPortKept :
    (queued .fabricLinkUp State.reset).FabricDownSound
      ∧ (queued .fabricLinkUp State.reset).ChannelSound
      ∧ (queued .answerLeaves lostOnOffer).FabricDownSound
      ∧ (queued .answerLeaves lostOnOffer).ChannelSound
      ∧ (∃ t : State, step (queued .fabricLinkUp State.reset) = .next t)
      ∧ ∃ t : State, step (queued .answerLeaves lostOnOffer) = .next t := by
  have hs : ∀ k : SlotId, State.reset.transit.slots[k].state = .free := fun k => by rw [reset_slots]
  exact ⟨fun _ => ⟨rfl, reset_entries, by decide +kernel, fun k => .inl (hs k), rfl, rfl⟩,
    (fun h => by cases h), (fun h => by cases h), ⟨rfl, (fun h => by cases h)⟩, ⟨_, rfl⟩, _, rfl⟩

theorem quiescing_sound : quiescing.QuiesceSound :=
  ⟨⟨fun _ => rfl, fun _ => rfl⟩, fun _ => by decide +kernel⟩

theorem witness_QuiesceStatusKept :
    (queued (.resume 0) quiescing).QuiesceSound
      ∧ ∃ t : State, step (queued (.resume 0) quiescing) = .next t :=
  ⟨quiescing_sound, _, rfl⟩

theorem witness_ObserversKept :
    (∃ t : State, step (queued .incidentHeadLatch reported) = .next t)
      ∧ (queued .incidentHeadLatch reported).IncidentsSound
      ∧ (queued .incidentHeadLatch reported).BoundariesSound
      ∧ { writingAt 0x13 with port.assembly := some (.stallLimit, [1]) }.PortSound := by
  refine ⟨⟨_, rfl⟩, ⟨by decide, by decide, by decide, fun i h => ?_⟩, ⟨by decide, by decide⟩,
    (fun f b h => by cases h), fun f b h => ?_⟩
  · cases h; decide
  · cases h; decide

theorem witness_TimeAdvancesAlone :
    held.phase = .running ∧ (∃ t : State, exec .forwarding held = .next t)
      ∧ isReset .forwarding = false ∧ Instr.forwarding ≠ .timeCountAdvance :=
  ⟨rfl, ⟨_, rfl⟩, rfl, by decide⟩

theorem witness_ForwardingOnlyWhenOpen :
    (exec .forwarding held = .next (after .forwarding held)
        ∧ (after .forwarding held).transit.slots[(0 : SlotId)].state.isInFlight = true
        ∧ held.transit.slots[(0 : SlotId)].state.isInFlight = false
        ∧ (after .forwarding held).arbiter.channel.isSome = true
        ∧ (after .forwarding held).arbiter.channel ≠ held.arbiter.channel)
      ∧ held.phase = .running ∧ held.mem.link ≠ .down
      ∧ exec .memoryLinkDown held = .next (after .memoryLinkDown held)
      ∧ exec (.quiesce 0) held = .next (after (.quiesce 0) held) :=
  ⟨⟨rfl, by decide +kernel⟩, rfl, by decide, rfl, rfl⟩

theorem witness_EpochsMoveAtAllocation :
    exec .forwarding held = .next (after .forwarding held) ∧ isReset .forwarding = false
      ∧ (after .forwarding held).transit.slots[(0 : SlotId)].epoch = 1 :=
  ⟨rfl, rfl, by decide +kernel⟩

theorem witness_LockedBankKept :
    (∃ t : State, exec .forwarding { held with stats.bank.state := .locked } = .next t)
      ∧ isReset .forwarding = false
      ∧ { held with stats.bank.state := .locked }.stats.bank.state = .locked :=
  ⟨⟨_, rfl⟩, rfl, rfl⟩

theorem witness_CountersNeverDecrease :
    (∃ t : State, exec .forwarding held = .next t) ∧ isReset .forwarding = false
      ∧ (∃ t : State, exec (.statsClear 0) held = .next t) ∧ isReset (.statsClear 0) = false :=
  ⟨⟨_, rfl⟩, rfl, ⟨_, rfl⟩, rfl⟩

theorem witness_ConfigurationKeptOtherwise :
    (after (.mapSwap 0) held).map ≠ held.map
      ∧ (after (.classApply 3) (ready.setBudget 3 ⟨meter, Settings.reset, false, 0, 0⟩)).budget[3].active
        ≠ (ready.setBudget 3 ⟨meter, Settings.reset, false, 0, 0⟩).budget[3].active
      ∧ (after .forwarding held).arbiter.pointers ≠ held.arbiter.pointers := by decide +kernel

theorem witness_HazardLaws :
    held.PlacedInOrder [0, 1] ∧ (∃ t : State, exec .forwarding held = .next t)
      ∧ held.pool.entries[(0 : EntryId)] = .queued writeRecord
      ∧ held.pool.entries[(1 : EntryId)] = .queued readRecord
      ∧ List.Sublist [(0 : EntryId), 1] [0, 1] ∧ readRecord.overlaps writeRecord = true :=
  ⟨held_placed, ⟨_, rfl⟩, held_write, held_read, by decide, by decide +kernel⟩

theorem witness_QuiesceCompletesWithLastFlight :
    { quiescing with ret.register := .unmatched response }.QuiesceSound
      ∧ { quiescing with ret.register := .unmatched response }.arbiter.quiesce = .quiescing
      ∧ isReset .matchResponse = false
      ∧ exec .matchResponse { quiescing with ret.register := .unmatched response }
        = .next (after .matchResponse { quiescing with ret.register := .unmatched response })
      ∧ (after .matchResponse
          { quiescing with ret.register := .unmatched response }).countSlots SlotState.isInFlight = 0
      ∧ (after .matchResponse
          { quiescing with ret.register := .unmatched response }).arbiter.quiesce = .quiesced :=
  ⟨quiescing_sound, rfl, rfl, rfl, by decide +kernel, by decide +kernel⟩

theorem witness_NothingToActOn :
    (ready.phase = .running ∧ ready.ret.link = .up ∧ ready.mem.link ≠ .down
        ∧ ready.ret.channel ≠ .real ∧ ready.ret.channel ≠ .answer ∧ ready.port.bus ≠ .awaitOffset
        ∧ ready.port.bus ≠ .writing ∧ ready.port.bus ≠ .reading)
      ∧ (State.reset.ret.link = .down ∧ State.reset.mem.link = .down)
      ∧ (stalled.intake.register ≠ .empty ∧ ready.ret.register.isMatched = false
        ∧ ready.ret.answers = [])
      ∧ ready.intake.register = .empty := by decide +kernel

theorem witness_LinkUpsAndCredits :
    State.reset.phase = .running ∧ 64 = (63 : BitVec 6).toNat + 1 ∧ State.reset.ret.link = .down
      ∧ State.reset.mem.link = .down ∧ { ready with mem := ⟨.waitGrant, 0, 0⟩ }.mem.link = .waitGrant
      ∧ { ready with mem := ⟨.up, 64, 0⟩ }.mem.link = .up
      ∧ { ready with mem := ⟨.up, 64, 0⟩ }.mem.available + 64
        ≤ { ready with mem := ⟨.up, 64, 0⟩ }.mem.granted
      ∧ { ready with mem := ⟨.up, 64, 1⟩ }.mem.granted
        < { ready with mem := ⟨.up, 64, 1⟩ }.mem.available + 64 := by decide +kernel

theorem witness_FabricLinkDownDissolves : held.phase = .running ∧ held.ret.link = .up := ⟨rfl, rfl⟩

theorem witness_MemoryLinkDownLosesFlights :
    (flying 0).phase = .running ∧ (flying 0).mem.link ≠ .down
      ∧ 1 = (flying 0).countSlots (fun k => match k with
        | .inFlight _ _ _ => true
        | .expired _ owes => owes
        | .free => false
        | .lost _ => false) := ⟨rfl, by decide, by decide +kernel⟩

/-- Each reason of R6 at a boundary of its range, and a request that just passes. -/
theorem witness_MalformationReason :
    malformation ⟨5, 9, 4, 0x1040, 2, []⟩ = some 1 ∧ malformation ⟨5, 9, 1, 0x1040, 17, []⟩ = some 2
      ∧ malformation ⟨5, 9, 1, 0x1041, 1, []⟩ = some 3
      ∧ malformation ⟨5, 9, 3, 0x1040, 2, [0]⟩ = some 4
      ∧ malformation ⟨5, 9, 1, 0x1FC0, 2, []⟩ = some 5
      ∧ malformation ⟨5, 9, 2, 0x1FC0, 1, []⟩ = some 6
      ∧ malformation ⟨5, 9, 2, 0x1C00, 16, List.replicate 16 0⟩ = none := by decide +kernel

theorem witness_LowestMatchClassifies :
    entryCovers { held with map.bankA := held.map.bankA.set 23 rule }.map.activeBank[(23 : MapIndex)]
        5 2 .write
      ∧ (∀ j : MapIndex, j < 23 →
        ¬ entryCovers { held with map.bankA := held.map.bankA.set 23 rule }.map.activeBank[j] 5 2 .write)
      ∧ ∀ i : MapIndex, ¬ entryCovers held.map.activeBank[i] 5 2 .write := by
  unfold entryCovers; decide +kernel

theorem witness_RequestsRefused :
    (ready.phase = .running ∧ ready.intake.register = .empty ∧ ready.ret.link = .up
        ∧ malformation ⟨5, 9, 1, 0x1040, 17, []⟩ = some 2)
      ∧ held.phase = .running ∧ held.intake.register = .empty ∧ held.ret.link = .up
      ∧ malformation writeRequest = none
      ∧ 0 < held.openObligations writeRequest.source writeRequest.tag := by decide +kernel

theorem witness_AcceptedRequestPlacedOrStalled :
    (held.phase = .running ∧ held.intake.register = .empty ∧ held.ret.link = .up
        ∧ malformation ⟨7, 2, 3, 0x1080, 1, [0xDD]⟩ = none ∧ held.openObligations 7 2 = 0
        ∧ kindOfCode 3 = some .atomic ∧ 0 = held.classify 7 (startPage 0x1080) .atomic
        ∧ held.placementTest 0 .atomic 1 = true
        ∧ (held.pool.entries[(2 : EntryId)] = .free
          ∧ ∀ e' : EntryId, e' < 2 → held.pool.entries[e'] ≠ .free))
      ∧ full.phase = .running ∧ full.intake.register = .empty ∧ full.ret.link = .up
      ∧ full.openObligations 7 2 = 0 ∧ 0 = full.classify 7 (startPage 0x1080) .atomic
      ∧ full.placementTest 0 .atomic 1 = false := by decide +kernel

theorem witness_StalledRequestRetried :
    (stalled.phase = .running ∧ stalled.intake.register = .stalled stalledWrite
        ∧ stalled.placementTest 0 .write 2 = true ∧ stalled.pool.entries[(0 : EntryId)] = .free
        ∧ ∀ e' : EntryId, e' < 0 → stalled.pool.entries[e'] ≠ .free)
      ∧ { full with intake := stalled.intake }.intake.register = .stalled stalledWrite
      ∧ { full with intake := stalled.intake }.placementTest 0 .write 2 = false := by decide +kernel

theorem witness_StallReportedOnce :
    stalled.phase = .running ∧ stalled.intake.register = .stalled stalledWrite
      ∧ (100 : BitVec 16) ≠ 0 ∧ stalledWrite.reported = false
      ∧ (100 : BitVec 16).toNat ≤ (stalled.time - stalledWrite.stallStart).toNat
      ∧ stalled.intake.stallLimit = 100
      ∧ (stalled.time - stalledWrite.stallStart).toNat < (101 : BitVec 16).toNat
      ∧ { stalled with intake.stallLimit := 101 }.intake.stallLimit = 101
      ∧ ready.intake.register = .empty := by decide +kernel

theorem witness_BoundaryReplenishes :
    metered.phase = .running
      ∧ meter = (if metered.budget[(3 : ClassId)].pending = true then metered.budget[(3 : ClassId)].staged
        else metered.budget[(3 : ClassId)].active)
      ∧ 15 = (meter.budget.toNat : Int) + (meter.burst.toNat : Int)
      ∧ metered.budget[(3 : ClassId)].active.period.toNat
        ≤ (metered.time - metered.budget[(3 : ClassId)].lastBoundary).toNat
      ∧ ((999 : Time) - metered.budget[(3 : ClassId)].lastBoundary).toNat
        < metered.budget[(3 : ClassId)].active.period.toNat := by decide +kernel

theorem witness_ArbiterChoice :
    (held.chooseClass = some 0 ∧ held.eligible 0 = true ∧ held.eligible 1 = false
        ∧ ready.chooseClass = none)
      ∧ (ready.pool.queues[(0 : ClassId)] = [] ∧ held.pool.queues[(0 : ClassId)] = 0 :: []
        ∧ held.pool.entries[(0 : EntryId)] = .queued writeRecord ∧ writeRecord.waitList = []
        ∧ held.pool.entries[(1 : EntryId)] = .queued readRecord ∧ readRecord.waitList ≠ [])
      ∧ (held.setBudget 0 ⟨meter, { meter with mode := 2 }, false, 0, 0⟩).headCondition 0 = .gated
      ∧ (held.setBudget 0 ⟨meter, meter, false, 0, 0⟩).headCondition 0 = .budgetWait
      ∧ { held with mem.available := 0 }.headCondition 0 = .resourceWait
      ∧ (held.setBudget 0 ⟨meter, meter, false, 1, 0⟩).headCondition 0 = .ready := by decide +kernel

theorem witness_ForwardingIsOneEvent :
    (held.phase = .running ∧ held.arbiter.channel = none ∧ held.chooseClass = some 0
        ∧ held.pool.queues[(0 : ClassId)].head? = some 0
        ∧ held.pool.entries[(0 : EntryId)] = .queued writeRecord
        ∧ (held.transit.slots[(0 : SlotId)].state = .free
          ∧ ∀ k' : SlotId, k' < 0 → held.transit.slots[k'].state ≠ .free)
        ∧ 1 = held.transit.slots[(0 : SlotId)].epoch + 1)
      ∧ ready.chooseClass = none ∧ (after .forwarding held).arbiter.channel ≠ none := by decide +kernel

theorem witness_SendTakeAndComplete :
    (ready.phase = .running ∧ ready.ret.register = .empty ∧ ready.mem.link = .up)
      ∧ ((toMatch .free).ret.register ≠ .empty ∧ State.reset.mem.link ≠ .up)
      ∧ ({ ready with arbiter.quiesce := .quiescing }.arbiter.quiesce = .quiescing
        ∧ { ready with arbiter.quiesce := .quiescing }.countSlots SlotState.isInFlight = 0)
      ∧ ready.arbiter.quiesce ≠ .quiescing ∧ quiescing.countSlots SlotState.isInFlight ≠ 0 := by
  decide +kernel

theorem witness_ExpiryFollowsTheGuard :
    ((flying 0).phase = .running
        ∧ (flying 0).transit.slots[(5 : SlotId)].state = .inFlight (flight 0) (some 1000) false
        ∧ (flight 0).deadline.toNat ≤ ((flying 0).time - (flight 0).forwardTime).toNat
        ∧ (flight 0).guard ≠ 1)
      ∧ ((flying 1).phase = .running
        ∧ (flying 1).transit.slots[(5 : SlotId)].state = .inFlight (flight 1) (some 1000) false
        ∧ (flight 1).deadline.toNat ≤ ((flying 1).time - (flight 1).forwardTime).toNat
        ∧ (flight 1).guard = 1 ∧ (flying 1).arbiter.quiesce ≠ .quiescing)
      ∧ ((999 : Time) - (flight 0).forwardTime).toNat < (flight 0).deadline.toNat := by decide +kernel

theorem witness_MatchCompletes :
    (toMatch (.inFlight (flight 0) none true)).phase = .running
      ∧ (toMatch (.inFlight (flight 0) none true)).ret.register = .unmatched response
      ∧ response.tag.toNat = 8 * (5 : SlotId).val
        + (toMatch (.inFlight (flight 0) none true)).transit.slots[(5 : SlotId)].epoch.toNat
      ∧ (toMatch (.inFlight (flight 0) none true)).transit.slots[(5 : SlotId)].state
        = .inFlight (flight 0) none true
      ∧ (toMatch (.inFlight (flight 0) none true)).arbiter.quiesce ≠ .quiescing := by decide +kernel

theorem witness_MatchSupersedes :
    ({ lostOnOffer with ret.register := .unmatched response }.phase = .running
        ∧ { lostOnOffer with ret.register := .unmatched response }.ret.register = .unmatched response
        ∧ response.tag.toNat
          = 8 * (5 : SlotId).val + lostOnOffer.transit.slots[(5 : SlotId)].epoch.toNat
        ∧ lostOnOffer.transit.slots[(5 : SlotId)].state = .lost (flight 0)
        ∧ lostOnOffer.ret.link = .up ∧ lostOnOffer.ret.channel = .answer
        ∧ lostOnOffer.ret.answers.head? = some (.slot 5))
      ∧ (toMatch (.expired (flight 1) true)).transit.slots[(5 : SlotId)].state
        = .expired (flight 1) true := by decide +kernel

theorem witness_MatchAbsorbsOrStrays :
    ((toMatch (.expired (flight 1) false)).phase = .running
        ∧ (toMatch (.expired (flight 1) false)).ret.register = .unmatched response
        ∧ response.tag.toNat = 8 * (5 : SlotId).val
          + (toMatch (.expired (flight 1) false)).transit.slots[(5 : SlotId)].epoch.toNat
        ∧ (toMatch (.expired (flight 1) false)).transit.slots[(5 : SlotId)].state
          = .expired (flight 1) false)
      ∧ ((toMatch .free).ret.register = .unmatched response
        ∧ response.tag.toNat = 8 * (5 : SlotId).val + (3 : BitVec 3).toNat
        ∧ (toMatch .free).transit.slots[(5 : SlotId)].state = .free)
      ∧ ready.ret.register = .empty := by decide +kernel

theorem witness_ResponsesLeave :
    ({ ready with ret := ⟨.up, .real, .matched matchedRead, [], .real⟩ }.phase = .running
        ∧ { ready with ret := ⟨.up, .real, .matched matchedRead, [], .real⟩ }.ret.link = .up
        ∧ { ready with ret := ⟨.up, .real, .matched matchedRead, [], .real⟩ }.ret.channel = .real
        ∧ { ready with ret := ⟨.up, .real, .matched matchedRead, [], .real⟩ }.ret.register
          = .matched matchedRead)
      ∧ lostOnOffer.phase = .running ∧ lostOnOffer.ret.link = .up ∧ lostOnOffer.ret.channel = .answer
      ∧ lostOnOffer.ret.answers = .slot 5 :: [] ∧ (lostOnOffer.answerOf (.slot 5)).isSome = true := by
  decide +kernel

/-- Each kind of owner with its answer on offer, and events that leave an offer open, turn TIMEOUT to LOST and
withdraw it. -/
theorem witness_ResponsesLeave_offers :
    ({ ready with intake.register := .rejecting 7 2 .malformed, ret.channel := .answer
                  ret.answers := [.intake] }.offered? = some ⟨7, 2, .malformed, []⟩
        ∧ { ready with intake.register := .rejecting 7 2 .tagReuse, ret.channel := .answer
                       ret.answers := [.intake] }.offered? = some ⟨7, 2, .tagReuse, []⟩
        ∧ (after (.classDiscard 0) held).offered? = some ⟨5, 9, .cancelled, []⟩
        ∧ (after (.deadlineExpiry 5) (flying 1)).offered? = some ⟨5, 9, .timeout, []⟩
        ∧ lostOnOffer.offered? = some ⟨5, 9, .lost, []⟩)
      ∧ ({ ready with ret := ⟨.up, .real, .matched matchedRead, [], .real⟩ }.offered?
          = some ⟨5, 9, .okay, [0xCC]⟩
        ∧ isReset .memoryLinkDown = false ∧ Instr.memoryLinkDown ≠ .fabricLinkDown
        ∧ Instr.memoryLinkDown ≠ .realResponseLeaves ∧ Instr.memoryLinkDown ≠ .answerLeaves)
      ∧ ((after .memoryLinkDown (after (.deadlineExpiry 5) (flying 1))).offered?
          = some ⟨5, 9, .lost, []⟩)
      ∧ (after .matchResponse { lostOnOffer with ret.register := .unmatched response }).ret.channel
        = .real := by decide +kernel

theorem starved_entries (e : EntryId) :
    e = 0 ∨ (after (.fabricRequestArrival writeRequest) starved).pool.entries[e] = .free := by
  revert e; decide +kernel

theorem witness_CountingRules :
    State.reset.BoundariesSound
      ∧ (after (.fabricRequestArrival writeRequest) starved).PlacedInOrder [0]
      ∧ exec (.fabricRequestArrival writeRequest) starved
        = .next (after (.fabricRequestArrival writeRequest) starved)
      ∧ isReset (.fabricRequestArrival writeRequest) = false
      ∧ starved.headNewlyNoted (after (.fabricRequestArrival writeRequest) starved) 0 = true
      ∧ (after (.fabricRequestArrival writeRequest) starved).stats.live[(0 : ClassId)].budgetWaits = 1 := by
  refine ⟨⟨by decide, by decide⟩, ⟨by decide, by decide +kernel, by decide +kernel, ?_⟩, rfl, rfl,
    by decide +kernel, by decide +kernel⟩
  have h0 : (after (.fabricRequestArrival writeRequest) starved).pool.entries[(0 : EntryId)]
      = .queued { writeRecord with arrival := 1000, waitedForBudget := true } := by decide +kernel
  intro b rb h a
  rcases starved_entries b with rfl | hb
  · rw [h0] at h; cases h
    refine ⟨fun h => (by cases h), fun ⟨hs, ra, hra, _⟩ => ?_⟩
    have := hs.length_le
    simp at this
  · rw [hb] at h; cases h

theorem witness_SnapshotsAndClears :
    ready.phase = .running ∧ ready.port.status.state ≠ .running ∧ ready.stats.bank.state = .empty
      ∧ { ready with stats.bank.state := .locked }.stats.bank.state = .locked
      ∧ { ready with stats.autoInterval := 1 }.stats.autoInterval ≠ 0
      ∧ { ready with stats.autoInterval := 1 }.stats.autoInterval.toNat * 1000
        ≤ (ready.time - ready.stats.timerStart).toNat
      ∧ ready.stats.autoInterval = 0
      ∧ ((999 : Time) - ready.stats.timerStart).toNat < (1 : BitVec 16).toNat * 1000 := by decide +kernel

theorem witness_IncidentsRecordedOrDropped :
    (List.replicate 31 incident).length < 32 ∧ 32 ≤ (List.replicate 32 incident).length
      ∧ reported.phase = .running ∧ reported.port.status.state ≠ .running := by decide +kernel

theorem witness_TransfersOpenAndEnd :
    ready.phase = .running ∧ (0x58 : BitVec 7).toNat = 0x58 + ready.port.straps.toNat
      ∧ (0x59 : BitVec 7).toNat ≠ 0x58 + ready.port.straps.toNat
      ∧ { ready with port.bus := .awaitOffset }.port.bus = .awaitOffset
      ∧ (0xB0 : Byte).toNat = 2 * (0x58 : BitVec 7).toNat + 0
      ∧ (0xB7 : Byte).toNat = 2 * (0x5B : BitVec 7).toNat + 1 ∧ (0x59 : BitVec 7) ≠ 0x58
      ∧ BusPhase.addressing ≠ .idle := by decide +kernel

theorem witness_WindowBytesAssemble :
    ((writingAt 0x12).phase = .running ∧ (writingAt 0x12).port.bus = .writing
        ∧ fieldAt 0x12 = some (.stallLimit, 0) ∧ Field.stallLimit.writable = true
        ∧ 0 + 1 < Field.stallLimit.size)
      ∧ (fieldAt 0x13 = some (.stallLimit, 1) ∧ 1 + 1 = Field.stallLimit.size
        ∧ { writingAt 0x13 with port.assembly := some (.stallLimit, [1]) }.port.assembly
          = some (.stallLimit, [1]))
      ∧ (writingAt 0x13).port.assembly = none ∧ fieldAt 0x11 = none ∧ fieldAt 0xFFFF = none
      ∧ Field.identity.writable = false := by decide +kernel

theorem witness_FieldsTakeEffectAsTheirRows :
    ready.phase = .running ∧ SettingField.limit.isByte = true ∧ (255 : BitVec 16).toNat < 256
      ∧ commandBytes (.quiesce 7) = some (1, 7) := by decide +kernel

theorem witness_ReadsComeFromTheLatch :
    (readingAt 0).phase = .running ∧ (readingAt 0).port.bus = .reading ∧ fieldAt 0x11 = none
      ∧ fieldAt 0 = some (.identity, 0) ∧ 1 < Field.identity.size
      ∧ fieldAt 1 = some (.identity, 1) ∧ fieldAt 0x10 = some (.defaultClass, 0)
      ∧ Field.defaultClass.size = 1 ∧ fieldAt 0x90 = some (.incidentHead, 0)
      ∧ fieldAt 0xA6 = some (.incidentHead, 22) ∧ fieldAt 0xA5 = some (.incidentHead, 21) := by
  decide +kernel

theorem witness_IncidentHeadReadAndRemoved :
    reported.phase = .running ∧ reported.incidents.records = incident :: []
      ∧ ready.incidents.records = []
      ∧ (after .incidentHeadLatch reported).incidents.headMark = true
      ∧ reported.incidents.headMark = false
      ∧ (after .incidentHeadLatch reported).port.latch = some (.incidentHead, incidentBytes (some incident))
      ∧ reported.port.latch = none := by decide +kernel

theorem witness_FieldWritesReachTheirOwners :
    ready.phase = .running ∧ (255 : BitVec 16).toNat < 256
      ∧ State.reset.BoundariesSound
      ∧ (#v[0, 2, 4, 8, 16, 32, 64] : Vector (BitVec 16) 7)[0] = 0
      ∧ (#v[1, 2, 4, 8, 16, 32, 32] : Vector (BitVec 16) 7)[6].toNat
        ≤ (#v[1, 2, 4, 8, 16, 32, 32] : Vector (BitVec 16) 7)[5].toNat :=
  ⟨rfl, by decide, ⟨by decide, by decide⟩, by decide, by decide⟩

theorem witness_PortRefusals :
    (quiescing.phase = .running ∧ quiescing.port.status.state = .running
        ∧ commandBytes (.purge 9) = some (7, 9) ∧ (7 : Byte) ≠ 2)
      ∧ ready.port.status.state ≠ .running ∧ (0 : Byte).toNat = 0 ∧ 13 ≤ (13 : Byte).toNat
      ∧ 16 ≤ (16 : Byte).toNat := by decide +kernel

theorem witness_QuiesceAndResume :
    ready.phase = .running ∧ ready.port.status.state ≠ .running ∧ ready.arbiter.quiesce = .opened
      ∧ 0 = ready.countSlots SlotState.isInFlight
      ∧ (flying 0).port.status.state ≠ .running ∧ (flying 0).arbiter.quiesce = .opened
      ∧ 1 = (flying 0).countSlots SlotState.isInFlight
      ∧ quiescing.arbiter.quiesce = .quiescing ∧ quiesced.arbiter.quiesce = .quiesced
      ∧ quiesced.port.status.state ≠ .running := by decide +kernel

theorem witness_SwapAndPurge :
    ready.phase = .running ∧ ready.port.status.state ≠ .running ∧ ready.map.active = .a
      ∧ { ready with map.active := .b }.map.active = .b := by decide +kernel

theorem witness_CommitAndApply :
    (metered.phase = .running ∧ metered.port.status.state ≠ .running
        ∧ (3 : Byte).toNat = (3 : ClassId).val ∧ meter = metered.budget[(3 : ClassId)].staged
        ∧ 15 = (meter.budget.toNat : Int) + (meter.burst.toNat : Int))
      ∧ (∀ i : Nat, metered.checkPasses 3 i)
      ∧ ¬ unfit.checkPasses 3 3 ∧ ∀ j : Nat, j < 3 → unfit.checkPasses 3 j := by
  refine ⟨by decide +kernel, fun i => ?_, ?_, fun j hj => ?_⟩
  · unfold State.checkPasses
    split <;> decide +kernel
  · intro h
    have hl : unfit.budget[(3 : ClassId)].staged.limit.toNat ≤ 192 := h.2
    exact absurd hl (by decide +kernel)
  · unfold State.checkPasses
    split <;> first | decide +kernel | omega

theorem witness_DiscardCancelsTheQueue :
    held.phase = .running ∧ held.port.status.state ≠ .running ∧ (1 : Byte).toNat = (1 : ClassId).val
      ∧ [1] = held.pool.queues[(1 : ClassId)] := by decide +kernel

theorem witness_DefaultsRestoreTheConfiguration :
    (ready.phase = .running ∧ ready.port.status.state ≠ .running ∧ ready.arbiter.quiesce ≠ .quiesced)
      ∧ ({ held with arbiter.quiesce := .quiesced }.arbiter.quiesce = .quiesced
        ∧ held.pool.entries[(0 : EntryId)] ≠ .free)
      ∧ ((∀ e : EntryId, (inSlot (.expired (flight 1) false)).pool.entries[e] = .free)
        ∧ (inSlot (.expired (flight 1) false)).transit.slots[(5 : SlotId)].state ≠ .free)
      ∧ (quiesced.arbiter.quiesce = .quiesced ∧ (∀ e : EntryId, quiesced.pool.entries[e] = .free)
        ∧ ∀ k : SlotId, quiesced.transit.slots[k].state = .free)
      ∧ { quiesced with intake := stalled.intake }.intake.register = .stalled stalledWrite
      ∧ stalledWrite.data.length ≤ 1024 ∧ quiesced.intake.register = .empty :=
  ⟨by decide +kernel, by decide +kernel, ⟨reset_entries, by decide +kernel⟩,
    ⟨rfl, reset_entries, fun k => congrArg Slot.state (reset_slots k)⟩, rfl, by decide, rfl⟩

theorem witness_WindowMapIsOneToOne :
    22 < Field.incidentHead.size ∧ fieldAt 0xA6 = some (.incidentHead, 22) := by decide +kernel

theorem witness_RecordsReadBack :
    (⟨5, .write, 0x1040, 31, 43, []⟩ : MemRequest).length < 32 := by decide

end Sys2Proof.Tests
end

/-! # The ledger: what the fabric is held and owed by, and the clock -/

namespace Sys2Proof.Machine

-- One thread, as in the tests: with the default the joined text can run out of threads as it compiles.
set_option Elab.async false

/-! ## Quiet updates -/

/-- The part of the state on which the fabric port rests, with the clock and the reset-cause record: most
updates leave all of it. The waited-for-budget flags of the entries are left out. -/
structure Ledger where
  time : Time
  cause : CauseRecord
  ret : ResponseReturn
  register : IntakeState
  queues : Vector (List EntryId) 16
  entries : Vector HoldEntry 192
  slots : Vector Slot 128

/-- The ledger of a state. -/
def State.ledger (s : State) : Ledger :=
  { time := s.time, cause := s.cause, ret := s.ret, register := s.intake.register
    queues := s.pool.queues, entries := s.pool.entries.map HoldEntry.unflagged
    slots := s.transit.slots }

@[simp] theorem State.ledger_countClass (s : State) (c : ClassId) (k : ClassCounter) (n : Nat) :
    (s.countClass c k n).ledger = s.ledger := rfl

@[simp] theorem State.ledger_countGlobal (s : State) (k : GlobalCounter) (n : Nat) :
    (s.countGlobal k n).ledger = s.ledger := rfl

@[simp] theorem State.ledger_raise (s : State) (body : IncidentBody) :
    (s.raise body).ledger = s.ledger := by
  rw [s.raise_frame body]; rfl

@[simp] theorem State.ledger_setBudget (s : State) (c : ClassId) (b : ClassBudget) :
    (s.setBudget c b).ledger = s.ledger := rfl

@[simp] theorem State.ledger_done (s : State) (code argument : Byte) (d : Nat) :
    (s.done code argument d).ledger = s.ledger := rfl

@[simp] theorem State.ledger_completeQuiesce (s : State) : s.completeQuiesce.ledger = s.ledger := by
  unfold State.completeQuiesce
  split
  · split <;> rfl
  · rfl
  · rfl

@[simp] theorem State.ledger_noteBudgetWaits (s : State) : s.noteBudgetWaits.ledger = s.ledger := by
  have h := s.noteBudgetWaits_onlyFlags
  have he : s.noteBudgetWaits.pool.entries.map HoldEntry.unflagged
      = s.pool.entries.map HoldEntry.unflagged := by
    ext i hi : 1
    simpa using h.entries ⟨i, hi⟩
  rw [State.ledger, he, h.frame]
  rfl

/-- Equal ledgers hold the same entries but for their flags. -/
theorem State.entry_of_ledger_eq {s t : State} (h : t.ledger = s.ledger) (e : EntryId) :
    t.pool.entries[e].unflagged = s.pool.entries[e].unflagged := by
  have := congrArg (fun l => l.entries[e]) h
  simpa [State.ledger] using this

end Sys2Proof.Machine


namespace Sys2Proof.Machine

set_option Elab.async false

/-! ## Answers owed and offers open -/

/-- Every answer owed in `s` is owed in `t`, and reads the same. -/
def State.OwedKept (s t : State) : Prop :=
  ∀ (o : Owner) (x : FabricResponse), s.answerOf o = some x → t.answerOf o = some x

/-- What is owed stands where the owners that owe are left as they are (R145). -/
theorem State.OwedKept.of_owners {s t : State}
    (hintake : ∀ (source : BitVec 6) (tag : BitVec 8) (owed : RefusalStatus),
      s.intake.register = .rejecting source tag owed → t.intake.register = s.intake.register)
    (hentry : ∀ (e : EntryId) (r : HoldRecord), s.pool.entries[e] = .cancelling r →
      t.pool.entries[e] = s.pool.entries[e])
    (hslot : ∀ (k : SlotId) (r : SlotRecord), s.transit.slots[k].state = .expired r true
      ∨ s.transit.slots[k].state = .lost r → t.transit.slots[k].state = s.transit.slots[k].state) :
    s.OwedKept t := by
  intro o x h
  cases o with
  | intake =>
    cases hr : s.intake.register with
    | rejecting source tag owed => simpa only [State.answerOf, hintake _ _ _ hr] using h
    | empty => simp only [State.answerOf, hr, reduceCtorEq] at h
    | stalled q => simp only [State.answerOf, hr, reduceCtorEq] at h
  | entry e =>
    cases he : s.pool.entries[e] with
    | cancelling r => simpa only [State.answerOf, hentry e r he] using h
    | free => simp only [State.answerOf, he, reduceCtorEq] at h
    | queued r => simp only [State.answerOf, he, reduceCtorEq] at h
  | slot k =>
    cases hk : s.transit.slots[k].state with
    | expired r owes =>
      cases owes with
      | true => simpa only [State.answerOf, hslot k r (.inl hk)] using h
      | false => simp only [State.answerOf, hk, reduceCtorEq] at h
    | lost r => simpa only [State.answerOf, hslot k r (.inr hk)] using h
    | free => simp only [State.answerOf, hk, reduceCtorEq] at h
    | inFlight r d overdue => simp only [State.answerOf, hk, reduceCtorEq] at h

theorem State.OwedKept.refl (s : State) : s.OwedKept s := fun _ _ h => h

/-- A cancelling entry has no flag to lose. -/
theorem HoldEntry.eq_of_unflagged_cancelling {x y : HoldEntry} {r : HoldRecord}
    (h : x.unflagged = y.unflagged) (hy : y = .cancelling r) : x = y := by
  subst hy
  cases x <;> simp_all [HoldEntry.unflagged]

theorem State.OwedKept.of_ledger_eq {s t : State} (h : t.ledger = s.ledger) : s.OwedKept t :=
  .of_owners (fun _ _ _ _ => congrArg Ledger.register h)
    (fun e _ he => HoldEntry.eq_of_unflagged_cancelling (State.entry_of_ledger_eq h e) he)
    (fun k _ _ => congrArg (fun l => l.slots[k].state) h)

/-- With the fabric link UP the rule about the link DOWN asks nothing. -/
theorem State.FabricDownSound.of_up {s : State} (h : s.ret.link = .up) : s.FabricDownSound := by
  intro hd
  rw [h] at hd
  cases hd

theorem State.FabricDownSound.of_ledger_eq {s t : State} (h : t.ledger = s.ledger)
    (hs : s.FabricDownSound) : t.FabricDownSound := by
  have hret : t.ret = s.ret := congrArg Ledger.ret h
  have hreg : t.intake.register = s.intake.register := congrArg Ledger.register h
  have hqueues : t.pool.queues = s.pool.queues := congrArg Ledger.queues h
  have hslots : t.transit.slots = s.transit.slots := congrArg Ledger.slots h
  intro hd
  rw [hret] at hd
  obtain ⟨hr, he, hq, hk, ha, hm⟩ := hs hd
  rw [hret, hreg, hqueues, hslots]
  refine ⟨hr, fun e => ?_, hq, hk, ha, hm⟩
  rw [← HoldEntry.unflagged_eq_free, State.entry_of_ledger_eq h e, he e]
  rfl

/-- The channel's rule reads nothing but the response return block. -/
theorem State.ChannelSound.of_ret_eq {s t : State} (h : t.ret = s.ret) (hs : s.ChannelSound) :
    t.ChannelSound := by
  unfold State.ChannelSound
  rw [h]
  exact hs

/-- A channel that made its choice is sound, where an offer left open is one that waits (R141, R150). -/
theorem State.ChannelSound.of_channelAfter {t : State} {before : ResponseChannel}
    (h : t.ret.channel = t.channelAfter before)
    (hreal : before = .real → t.ret.link = .up ∧ t.ret.register.isMatched = true)
    (hanswer : before = .answer → t.ret.link = .up ∧ t.ret.answers ≠ []) : t.ChannelSound := by
  unfold State.ChannelSound
  rw [h]
  unfold State.channelAfter
  cases before with
  | real => simpa using hreal rfl
  | answer => simpa using hanswer rfl
  | idle =>
    cases hl : t.ret.link with
    | down => simp
    | up => cases hm : t.ret.register.isMatched <;> cases ha : t.ret.answers <;> cases ht : t.ret.turn <;> simp

/-- From `s` to `t` an open offer stands as it is (R141): the real response, or the answer of the list's
head. -/
structure State.OffersStand (s t : State) : Prop where
  real : s.ret.channel = .real → s.ret.register.isMatched = true →
    t.ret.channel = .real ∧ t.ret.register = s.ret.register
  answer : ∀ (o : Owner) (x : FabricResponse), s.ret.channel = .answer → s.ret.answers.head? = some o →
    s.answerOf o = some x →
    t.ret.channel = .answer ∧ t.ret.answers.head? = some o ∧ t.answerOf o = some x

theorem State.OffersStand.trans {s t u : State} (h : s.OffersStand t) (h' : t.OffersStand u) :
    s.OffersStand u where
  real hc hm := by
    obtain ⟨hc', hr⟩ := h.real hc hm
    obtain ⟨hc'', hr'⟩ := h'.real hc' (hr ▸ hm)
    exact ⟨hc'', hr'.trans hr⟩
  answer o x hc ha hx := by
    obtain ⟨hc', ha', hx'⟩ := h.answer o x hc ha hx
    exact h'.answer o x hc' ha' hx'

/-- Open offers stand where the channel with an open offer, a matched response and what is owed are left as they
are, and owners join the answer list at its end only. -/
theorem State.OffersStand.of_appended {s t : State} {joined : List Owner}
    (hchannel : s.ret.channel ≠ .idle → t.ret.channel = s.ret.channel)
    (hregister : s.ret.register.isMatched = true → t.ret.register = s.ret.register)
    (hanswers : t.ret.answers = s.ret.answers ++ joined) (howed : s.OwedKept t) : s.OffersStand t where
  real hc hm := ⟨(hchannel (by simp [hc])).trans hc, hregister hm⟩
  answer o x hc ha hx := by
    refine ⟨(hchannel (by simp [hc])).trans hc, ?_, howed o x hx⟩
    rw [hanswers, List.head?_append, ha]
    rfl

theorem State.OffersStand.of_ret_eq {s t : State} (hret : t.ret = s.ret) (howed : s.OwedKept t) :
    s.OffersStand t :=
  .of_appended (joined := []) (fun _ => by rw [hret]) (fun _ => by rw [hret]) (by rw [hret]; simp) howed

/-- From `s` to `t` the books are kept: the clock and the reset-cause record stand, an open offer stands as it
is, and the two rules of the fabric port go on holding. -/
structure State.LedgerKept (s t : State) : Prop where
  time : t.time = s.time
  cause : t.cause = s.cause
  offers : s.OffersStand t
  down : s.FabricDownSound → t.FabricDownSound
  channel : s.FabricDownSound → s.ChannelSound → t.ChannelSound

theorem State.LedgerKept.trans {s t u : State} (h : s.LedgerKept t) (h' : t.LedgerKept u) :
    s.LedgerKept u where
  time := h'.time.trans h.time
  cause := h'.cause.trans h.cause
  offers := h.offers.trans h'.offers
  down hs := h'.down (h.down hs)
  channel hs hc := h'.channel (h.down hs) (h.channel hs hc)

/-- An event that leaves the response return block alone keeps the books, where what is owed stands. -/
theorem State.LedgerKept.of_ret_eq {s t : State} (htime : t.time = s.time) (hcause : t.cause = s.cause)
    (hret : t.ret = s.ret) (howed : s.OwedKept t) (hdown : s.FabricDownSound → t.FabricDownSound) :
    s.LedgerKept t where
  time := htime
  cause := hcause
  offers := .of_ret_eq hret howed
  down := hdown
  channel _ hs := hs.of_ret_eq hret

theorem State.LedgerKept.of_ledger_eq {s t : State} (h : t.ledger = s.ledger) : s.LedgerKept t :=
  .of_ret_eq (congrArg Ledger.time h) (congrArg Ledger.cause h) (congrArg Ledger.ret h) (.of_ledger_eq h)
    (.of_ledger_eq h)

/-- A quiet update before an event that keeps the books. -/
theorem State.LedgerKept.after {s t u : State} (h : t.LedgerKept u) (hst : t.ledger = s.ledger) :
    s.LedgerKept u :=
  (State.LedgerKept.of_ledger_eq hst).trans h

theorem State.LedgerKept.refl (s : State) : s.LedgerKept s := .of_ledger_eq rfl

/-- After its choice the channel is sound, where an offer open before it is one that waits (R141, R150). -/
theorem State.ChannelSound.chooseOffer {p : State}
    (hreal : p.ret.channel = .real → p.ret.link = .up ∧ p.ret.register.isMatched = true)
    (hanswer : p.ret.channel = .answer → p.ret.link = .up ∧ p.ret.answers ≠ []) :
    p.chooseOffer.ChannelSound := by
  refine .of_channelAfter (p.chooseOffer_ret_channel p.ret.channel rfl) (fun hc => ?_) (fun hc => ?_)
  · simpa using hreal hc
  · simpa using hanswer hc

/-- A sound channel that offers the real response holds one, with the link UP. -/
theorem State.ChannelSound.of_real {s : State} (hs : s.ChannelSound) (hc : s.ret.channel = .real) :
    s.ret.link = .up ∧ s.ret.register.isMatched = true := by
  unfold State.ChannelSound at hs
  rw [hc] at hs
  exact hs

/-- A sound channel that offers an answer has one listed, with the link UP. -/
theorem State.ChannelSound.of_answer {s : State} (hs : s.ChannelSound) (hc : s.ret.channel = .answer) :
    s.ret.link = .up ∧ s.ret.answers ≠ [] := by
  unfold State.ChannelSound at hs
  rw [hc] at hs
  exact hs

/-- A sound channel that is idle with the link UP has nothing to offer. -/
theorem State.ChannelSound.of_idle {s : State} (hs : s.ChannelSound) (hc : s.ret.channel = .idle)
    (hl : s.ret.link = .up) : s.ret.register.isMatched = false ∧ s.ret.answers = [] := by
  unfold State.ChannelSound at hs
  rw [hc] at hs
  exact hs hl

/-- Owners that join the answer list leave a sound channel sound, once it has made its choice (R150). -/
theorem State.ChannelSound.chooseOffer_of_joined {s p : State} {joined : List Owner}
    (hret : p.ret = { s.ret with answers := s.ret.answers ++ joined }) (hs : s.ChannelSound) :
    p.chooseOffer.ChannelSound := by
  refine .chooseOffer (fun hc => ?_) (fun hc => ?_) <;> rw [hret] at hc ⊢
  · exact hs.of_real hc
  · obtain ⟨hl, ha⟩ := hs.of_answer hc
    exact ⟨hl, by simp [ha]⟩

/-- A channel with an open offer makes no choice (R141). -/
theorem State.chooseOffer_of_offering {s : State} (h : s.ret.channel ≠ .idle) : s.chooseOffer = s :=
  s.chooseOffer_eq.2.1 (.inl h)

theorem State.FabricDownSound.chooseOffer {s : State} (hs : s.FabricDownSound) :
    s.chooseOffer.FabricDownSound := by
  rw [s.chooseOffer_eq.1]
  exact hs

theorem State.answerOf_chooseOffer (s : State) (o : Owner) : s.chooseOffer.answerOf o = s.answerOf o := by
  rw [s.chooseOffer_eq.1]
  rfl

/-- An event at which owners join the answer list and the channel makes its choice keeps the books, where what
was owed stands: `j` is the state the owners have joined, `p` what counting and reporting make of it (R145,
R150). -/
theorem State.LedgerKept.of_joined {s j p : State} {joined : List Owner} (hp : p.ledger = j.ledger)
    (htime : j.time = s.time) (hcause : j.cause = s.cause)
    (hret : j.ret = { s.ret with answers := s.ret.answers ++ joined }) (howed : s.OwedKept j)
    (hdown : s.FabricDownSound → j.FabricDownSound) : s.LedgerKept p.chooseOffer := by
  have hret' : p.ret = { s.ret with answers := s.ret.answers ++ joined } :=
    (congrArg Ledger.ret hp).trans hret
  have htime' : p.time = s.time := (congrArg Ledger.time hp).trans htime
  have hcause' : p.cause = s.cause := (congrArg Ledger.cause hp).trans hcause
  refine ⟨by simpa using htime', by simpa using hcause', .of_appended (joined := joined) (fun h => ?_)
    (fun _ => by simp [hret']) (by simp [hret']) (fun o x hx => ?_),
    fun hs => ((hdown hs).of_ledger_eq hp).chooseOffer, fun _ hs => .chooseOffer_of_joined hret' hs⟩
  · rw [State.chooseOffer_of_offering] <;> rw [hret']
    exact h
  · rw [State.answerOf_chooseOffer]
    exact State.OwedKept.of_ledger_eq hp o x (howed o x hx)

end Sys2Proof.Machine


namespace Sys2Proof.Machine

set_option Elab.async false

/-! ## The events that keep the ledger -/

/-- An event that an empty part with the link DOWN does not see keeps the rule of the link DOWN. -/
theorem State.FabricDownSound.of_busy {s t : State} (hlink : t.ret.link = s.ret.link)
    (hbusy : s.ret.link = .down → ¬ s.FabricDownSound) (hs : s.FabricDownSound) : t.FabricDownSound := by
  intro hd
  exact absurd hs (hbusy (hlink ▸ hd))

/-- A STALLED request means the fabric link is UP (R153). -/
theorem State.not_fabricDownSound_of_stalled {s : State} {q : StalledRequest}
    (h : s.intake.register = .stalled q) (hd : s.ret.link = .down) : ¬ s.FabricDownSound := by
  intro hs
  have := (hs hd).1
  rw [h] at this
  cases this

/-- A slot IN_FLIGHT means the fabric link is UP (R137). -/
theorem State.not_fabricDownSound_of_inFlight {s : State} {k : SlotId} {r : SlotRecord} {d : Option Time}
    {overdue : Bool} (h : s.transit.slots[k].state = .inFlight r d overdue) (hd : s.ret.link = .down) :
    ¬ s.FabricDownSound := by
  intro hs
  obtain ⟨-, -, -, hslot, -⟩ := hs hd
  have := hslot k
  rw [h] at this
  simp at this

/-- A QUEUED entry means the fabric link is UP (R38). -/
theorem State.not_fabricDownSound_of_queued {s : State} {e : EntryId} {r : HoldRecord}
    (h : s.pool.entries[e] = .queued r) (hd : s.ret.link = .down) : ¬ s.FabricDownSound := by
  intro hs
  obtain ⟨-, he, -⟩ := hs hd
  have := he e
  rw [h] at this
  cases this

/-! ### The intake -/

/-- A request that the pool takes was placed in a FREE entry (R20). -/
theorem State.placed_of_tryPlace {s t : State} {r : HoldRecord} (h : s.tryPlace r = some t) :
    ∃ e : EntryId, s.pool.entries[e] = .free ∧ s.Placed e r t := by
  unfold State.tryPlace at h
  split at h
  · split at h
    · rename_i e he
      rw [← Option.some.inj h]
      exact ⟨e, ((s.lowestFreeEntry_eq_some e).mp he).1, s.placeIn_placed e r⟩
    · cases h
  · cases h

theorem State.Placed.owedKept {s t : State} {e : EntryId} {r : HoldRecord} (h : s.Placed e r t)
    (he : s.pool.entries[e] = .free) : s.OwedKept t := by
  refine .of_owners (fun _ _ _ _ => by rw [h.frame]) (fun i q hi => ?_) (fun k _ _ => by rw [h.frame])
  have hie : i ≠ e := fun hie => by rw [hie, he] at hi; cases hi
  exact HoldEntry.eq_of_unflagged_cancelling (h.others i hie) hi

/-- What is owed stands where only the intake register changes and it is not REJECTING. -/
theorem State.OwedKept.setIntake {s t : State} (h : s.OwedKept t) (x : IntakeState)
    (hr : ∀ (source : BitVec 6) (tag : BitVec 8) (owed : RefusalStatus),
      t.intake.register ≠ .rejecting source tag owed) : s.OwedKept (t.setIntake x) :=
  fun o y hy => State.OwedKept.of_owners (s := t) (t := t.setIntake x) (fun _ _ _ hi => absurd hi (hr _ _ _))
    (fun _ _ _ => rfl) (fun _ _ _ => rfl) o y (h o y hy)

theorem State.retryPlacement_ledgerKept (s : State) : s.LedgerKept s.retryPlacement := by
  unfold State.retryPlacement
  split
  · rename_i q hq
    split
    · rename_i t ht
      obtain ⟨e, he, hplaced⟩ := State.placed_of_tryPlace ht
      have hret : (t.endStall q).ret = s.ret := by rw [State.endStall_ret, hplaced.frame]
      have howed : s.OwedKept (t.setIntake .empty) := (hplaced.owedKept he).setIntake _ (by
        intro _ _ _; rw [hplaced.frame]; simp [hq])
      refine .of_ret_eq (by rw [State.endStall_time, hplaced.frame])
        (by rw [State.endStall_cause, hplaced.frame]) hret howed
        (.of_busy (by rw [hret]) (State.not_fabricDownSound_of_stalled hq))
    · exact .refl s
  · exact .refl s
  · exact .refl s

theorem State.reportStall_ledgerKept (s : State) : s.LedgerKept s.reportStall := by
  unfold State.reportStall
  split
  · rename_i q hq
    split
    · have h : s.LedgerKept (s.setIntake (.stalled { q with reported := true })) :=
        .of_ret_eq rfl rfl rfl (.setIntake (.refl s) _ (by simp [hq]))
          (.of_busy rfl (State.not_fabricDownSound_of_stalled hq))
      exact h.trans (.of_ledger_eq (State.ledger_raise _ _))
    · exact .refl s
  · exact .refl s
  · exact .refl s

/-- A refused request joins the answer list as the intake's (R59, R63). -/
theorem State.refuseRequest_ledgerKept {s : State} (hr : s.intake.register = .empty)
    (hl : s.ret.link = .up) (req : FabricRequest) (owed : RefusalStatus) (count : GlobalCounter)
    (body : IncidentBody) : s.LedgerKept (s.refuseRequest req owed count body) :=
  .of_joined (j := (s.setIntake (.rejecting req.source req.tag owed)).joinAnswers [.intake])
    (by simp) rfl rfl rfl (.setIntake (.refl s) _ (by simp [hr])) (fun _ => .of_up hl)

theorem State.acceptRequest_ledgerKept {s : State} (hr : s.intake.register = .empty)
    (hl : s.ret.link = .up) (req : FabricRequest) : s.LedgerKept (s.acceptRequest req) := by
  unfold State.acceptRequest
  split
  · rename_i t ht
    obtain ⟨e, he, hplaced⟩ := State.placed_of_tryPlace ht
    have hret : t.ret = s.ret := by rw [hplaced.frame]
    exact .of_ret_eq (by rw [hplaced.frame]) (by rw [hplaced.frame]) hret (hplaced.owedKept he)
      (fun _ => .of_up (hret ▸ hl))
  · exact .of_ret_eq rfl rfl rfl (.setIntake (.refl s) _ (by simp [hr])) (fun _ => .of_up hl)

theorem State.arrive_ledgerKept (s : State) (req : FabricRequest) : s.LedgerKept (s.arrive req) := by
  unfold State.arrive
  split
  · rename_i hr hl
    split
    · exact State.refuseRequest_ledgerKept hr hl _ _ _ _
    · split
      · exact State.refuseRequest_ledgerKept hr hl _ _ _ _
      · exact State.acceptRequest_ledgerKept hr hl req
  · exact .refl s

/-! ### Forwarding and the transit table -/

/-- A forwarding allocates a slot and takes the head out of the pool; the ledger shows nothing else (R109). -/
theorem State.ledger_forwardHead (s : State) (c : ClassId) (e : EntryId) (r : HoldRecord) (k : SlotId) :
    (s.forwardHead c e r k).ledger
      = ((s.allocate k (s.slotRecordFor c r)).removeHead c e).ledger := by
  rw [State.forwardHead, State.ledger_noteBudgetWaits, State.charge]
  split <;> rfl

theorem State.forwardHead_ledgerKept {s : State} {c : ClassId} {e : EntryId} {r : HoldRecord} {k : SlotId}
    (he : s.pool.entries[e] = .queued r) (hk : s.transit.slots[k].state = .free) :
    s.LedgerKept (s.forwardHead c e r k) := by
  have h : s.LedgerKept ((s.allocate k (s.slotRecordFor c r)).removeHead c e) := by
    refine .of_ret_eq rfl rfl rfl (.of_owners (fun _ _ _ _ => rfl) (fun i q hi => ?_)
      (fun i q hi => ?_)) (.of_busy rfl (State.not_fabricDownSound_of_queued he))
    · have hie : i ≠ e := fun hie => by rw [hie, he] at hi; cases hi
      have hmap : ∀ v : Vector HoldEntry 192, (v.map (HoldEntry.dropMember e))[i] = v[i].dropMember e := by
        intro v; simp
      rw [State.removeHead_pool_entries, hmap, entries_set, if_neg hie, State.allocate_pool, hi]
      rfl
    · have hik : i ≠ k := fun hik => by rw [hik, hk] at hi; simp at hi
      rw [State.removeHead_transit, State.allocate_transit_slots, slots_set, if_neg hik]
  exact h.trans (.of_ledger_eq (s.ledger_forwardHead c e r k))

theorem State.forwardChoice_ledgerKept (s : State) : s.LedgerKept s.forwardChoice := by
  unfold State.forwardChoice
  split
  · rename_i c _ _
    split
    · rename_i e k _ hk
      split
      · rename_i r he
        have hp : s.LedgerKept (s.movePointer c) := .of_ledger_eq rfl
        exact hp.trans (State.forwardHead_ledgerKept he ((s.lowestFreeSlot_eq_some k).mp hk).1)
      · exact .refl s
      · exact .refl s
    · exact .refl s
  · exact .refl s

theorem State.OwedKept.setSlotState {s : State} {k : SlotId} (v : SlotState)
    (hk : ∀ r : SlotRecord, s.transit.slots[k].state ≠ .expired r true
      ∧ s.transit.slots[k].state ≠ .lost r) : s.OwedKept (s.setSlotState k v) := by
  refine .of_owners (fun _ _ _ _ => rfl) (fun _ _ _ => rfl) (fun i r hi => ?_)
  have hik : i ≠ k := fun hik => hi.elim (fun h => (hk r).1 (hik ▸ h)) (fun h => (hk r).2 (hik ▸ h))
  rw [State.slots_setSlotState, if_neg hik]

theorem State.expire_ledgerKept {s : State} {k : SlotId} {r : SlotRecord} {d : Time}
    (hk : s.transit.slots[k].state = .inFlight r (some d) false) : s.LedgerKept (s.expire k r d) := by
  have howed : ∀ v : SlotState, s.OwedKept (s.setSlotState k v) := fun v =>
    .setSlotState v (by simp [-Fin.getElem_fin, hk])
  have hdown : ∀ {t : State}, t.ret.link = s.ret.link → s.FabricDownSound → t.FabricDownSound :=
    fun hl => .of_busy hl (State.not_fabricDownSound_of_inFlight hk)
  unfold State.expire
  split
  · exact .of_joined (j := (s.setSlotState k (.expired r true)).joinAnswers [.slot k])
      (by simp; rfl) rfl rfl rfl (howed _) (hdown rfl)
  · exact (State.LedgerKept.of_ret_eq (s := s) (t := s.setSlotState k (.inFlight r (some d) true)) rfl rfl rfl
      (howed _) (hdown rfl)).trans (.of_ledger_eq ((State.ledger_raise _ _).trans rfl))

theorem State.expireSlot_ledgerKept (s : State) (k : SlotId) : s.LedgerKept (s.expireSlot k) := by
  unfold State.expireSlot
  split
  · rename_i hk
    split
    · exact State.expire_ledgerKept hk
    · exact .refl s
  all_goals exact .refl s

theorem State.takeResponse_ledgerKept (s : State) (resp : MemResponse) :
    s.LedgerKept (s.takeResponse resp) := by
  unfold State.takeResponse
  split
  · rename_i hr _
    refine ⟨rfl, rfl, .of_appended (joined := []) (fun _ => rfl)
      (fun hm => by simp [hr, ReturnRegister.isMatched] at hm) (by simp) (.refl s),
      fun hs hd => ?_, fun _ hs => ?_⟩
    · obtain ⟨hi, he, hq, hk, ha, -⟩ := hs hd
      exact ⟨hi, he, hq, hk, ha, rfl⟩
    · unfold State.ChannelSound at hs ⊢
      rw [hr] at hs
      exact hs
  · exact .refl s

end Sys2Proof.Machine


namespace Sys2Proof.Machine

set_option Elab.async false

/-! ### The commands of the command register -/

/-- A discard that finds an empty queue, as with the link DOWN every queue is, leaves nothing held. -/
theorem State.discard_fabricDownSound {s : State} (n : ClassId) (hs : s.FabricDownSound) :
    (((s.pool.queues[n].foldl State.cancelEntry s).setQueue n []).joinAnswers
      (s.pool.queues[n].map Owner.entry)).FabricDownSound := by
  intro hd
  rw [State.foldl_cancelEntry_frame] at hd
  obtain ⟨hr, he, hq, hk, ha, hm⟩ := hs hd
  rw [hq n]
  refine ⟨hr, he, fun c => ?_, hk, by simp [ha], hm⟩
  rw [State.joinAnswers_pool, State.setQueue_pool_queues, queues_set]
  split
  · rfl
  · exact hq c

theorem State.takeDiscard_ledgerKept (argument : Byte) (n : ClassId) (s : State) :
    s.LedgerKept (s.takeDiscard argument n) := by
  have hframe := State.foldl_cancelEntry_frame s.pool.queues[n] s
  have howed : s.OwedKept (((s.pool.queues[n].foldl State.cancelEntry s).setQueue n []).joinAnswers
      (s.pool.queues[n].map Owner.entry)) := by
    refine .of_owners (fun _ _ _ _ => ?_) (fun e r he => ?_) (fun k _ _ => ?_)
    · rw [hframe]; rfl
    · rw [State.joinAnswers_pool, State.setQueue_pool_entries, State.foldl_cancelEntry_entry, he]
    · rw [hframe]; rfl
  unfold State.takeDiscard
  refine .of_joined (joined := s.pool.queues[n].map Owner.entry) ?_ ?_ ?_ ?_ howed
    (State.discard_fabricDownSound n)
  · rw [State.ledger_done, State.ledger_noteBudgetWaits, State.ledger_countClass]
  all_goals rw [hframe]; rfl

/-- PURGE frees only slots that owe nothing, so what is owed stands (R134). -/
theorem State.takePurge_ledgerKept (s : State) (argument : Byte) :
    s.LedgerKept (s.takePurge argument) := by
  have h : s.LedgerKept (s.mapSlots SlotState.purge) := by
    refine .of_ret_eq rfl rfl rfl (.of_owners (fun _ _ _ _ => rfl) (fun _ _ _ => rfl)
      (fun k r hk => ?_)) (fun hs hd => ?_)
    · rw [State.slots_mapSlots]
      rcases hk with hk | hk <;> rw [hk] <;> rfl
    · obtain ⟨hr, he, hq, hk, ha, hm⟩ := hs hd
      refine ⟨hr, he, hq, fun k => .inl ?_, ha, hm⟩
      rw [State.slots_mapSlots]
      rcases hk k with hk | ⟨r, hk⟩ <;> rw [hk] <;> rfl
  exact h.trans (.of_ledger_eq rfl)

theorem State.takeDefaults_ledgerKept (s : State) (argument : Byte) :
    s.LedgerKept (s.takeDefaults argument) := by
  unfold State.takeDefaults
  split
  · exact .of_ledger_eq rfl
  · split
    · exact .of_ledger_eq rfl
    · split
      · exact .of_ledger_eq rfl
      · exact (State.retryPlacement_ledgerKept _).after rfl

theorem State.ledger_takeQuiesce (s : State) (argument : Byte) :
    (s.takeQuiesce argument).ledger = s.ledger := by
  unfold State.takeQuiesce
  split
  · rw [State.ledger_completeQuiesce]; rfl
  · rfl
  · rfl

theorem State.ledger_takeResume (s : State) (argument : Byte) :
    (s.takeResume argument).ledger = s.ledger := by
  unfold State.takeResume
  split <;> rfl

theorem State.ledger_takeBoundary (s : State) (c : ClassId) (forced : Bool) :
    (s.takeBoundary c forced).ledger = s.ledger := by
  rw [State.takeBoundary, State.ledger_noteBudgetWaits, State.ledger_setBudget]

theorem State.ledger_takeCommit (argument : Byte) (n : ClassId) (s : State) :
    (s.takeCommit argument n).ledger = s.ledger := by
  unfold State.takeCommit
  split <;> rfl

theorem State.ledger_takeApply (argument : Byte) (n : ClassId) (s : State) :
    (s.takeApply argument n).ledger = s.ledger := by
  unfold State.takeApply
  split
  · rw [State.ledger_done, State.ledger_takeBoundary]
  · rfl

theorem State.ledger_takeSnapshotCommand (s : State) (argument : Byte) :
    (s.takeSnapshotCommand argument).ledger = s.ledger := by
  unfold State.takeSnapshotCommand
  split <;> rfl

theorem State.ledger_takeRelease (s : State) (argument : Byte) :
    (s.takeRelease argument).ledger = s.ledger := by
  unfold State.takeRelease
  split <;> rfl

/-- The port's judgement of a command keeps the books where its owner does (R184). -/
theorem State.command_ledgerKept (s : State) (code argument : Byte) {owner : State → State}
    (h : ∀ t : State, t.LedgerKept (owner t)) : s.LedgerKept (s.command code argument owner) := by
  unfold State.command
  split
  · exact .of_ledger_eq rfl
  · exact (h _).after rfl

theorem State.classCommand_ledgerKept (s : State) (code argument : Byte)
    {owner : ClassId → State → State} (h : ∀ (n : ClassId) (t : State), t.LedgerKept (owner n t)) :
    s.LedgerKept (s.classCommand code argument owner) := by
  refine s.command_ledgerKept code argument fun t => ?_
  split
  · exact h _ t
  · exact .of_ledger_eq rfl

theorem State.commandQuiesce_ledgerKept (s : State) (b : Byte) : s.LedgerKept (s.commandQuiesce b) :=
  s.command_ledgerKept 1 b fun t => .of_ledger_eq (t.ledger_takeQuiesce b)

theorem State.commandResume_ledgerKept (s : State) (b : Byte) : s.LedgerKept (s.commandResume b) :=
  s.command_ledgerKept 2 b fun t => .of_ledger_eq (t.ledger_takeResume b)

theorem State.commandMapSwap_ledgerKept (s : State) (b : Byte) : s.LedgerKept (s.commandMapSwap b) :=
  s.command_ledgerKept 3 b fun _ => .of_ledger_eq rfl

theorem State.commandCommit_ledgerKept (s : State) (b : Byte) : s.LedgerKept (s.commandCommit b) :=
  s.classCommand_ledgerKept 4 b fun n t => .of_ledger_eq (t.ledger_takeCommit b n)

theorem State.commandApply_ledgerKept (s : State) (b : Byte) : s.LedgerKept (s.commandApply b) :=
  s.classCommand_ledgerKept 5 b fun n t => .of_ledger_eq (t.ledger_takeApply b n)

theorem State.commandDiscard_ledgerKept (s : State) (b : Byte) : s.LedgerKept (s.commandDiscard b) :=
  s.classCommand_ledgerKept 6 b fun n t => t.takeDiscard_ledgerKept b n

theorem State.commandPurge_ledgerKept (s : State) (b : Byte) : s.LedgerKept (s.commandPurge b) :=
  s.command_ledgerKept 7 b fun t => t.takePurge_ledgerKept b

theorem State.commandSnapshot_ledgerKept (s : State) (b : Byte) : s.LedgerKept (s.commandSnapshot b) :=
  s.command_ledgerKept 8 b fun t => .of_ledger_eq (t.ledger_takeSnapshotCommand b)

theorem State.commandRelease_ledgerKept (s : State) (b : Byte) : s.LedgerKept (s.commandRelease b) :=
  s.command_ledgerKept 9 b fun t => .of_ledger_eq (t.ledger_takeRelease b)

theorem State.commandStatsClear_ledgerKept (s : State) (b : Byte) :
    s.LedgerKept (s.commandStatsClear b) :=
  s.command_ledgerKept 10 b fun _ => .of_ledger_eq rfl

theorem State.commandIncidentsClear_ledgerKept (s : State) (b : Byte) :
    s.LedgerKept (s.commandIncidentsClear b) :=
  s.command_ledgerKept 11 b fun _ => .of_ledger_eq rfl

theorem State.commandDefaults_ledgerKept (s : State) (b : Byte) : s.LedgerKept (s.commandDefaults b) :=
  s.command_ledgerKept 12 b fun t => t.takeDefaults_ledgerKept b

/-- A write of the command register keeps the books, whatever its code (R184). -/
theorem State.writeCommand_ledgerKept (s : State) (code b : Byte) : s.LedgerKept (s.writeCommand code b) := by
  unfold State.writeCommand
  split
  · exact s.commandQuiesce_ledgerKept b
  · exact s.commandResume_ledgerKept b
  · exact s.commandMapSwap_ledgerKept b
  · exact s.commandCommit_ledgerKept b
  · exact s.commandApply_ledgerKept b
  · exact s.commandDiscard_ledgerKept b
  · exact s.commandPurge_ledgerKept b
  · exact s.commandSnapshot_ledgerKept b
  · exact s.commandRelease_ledgerKept b
  · exact s.commandStatsClear_ledgerKept b
  · exact s.commandIncidentsClear_ledgerKept b
  · exact s.commandDefaults_ledgerKept b
  · exact s.command_ledgerKept code b fun _ => .of_ledger_eq rfl

/-! ### Fields and the bus -/

theorem State.ledger_writeShadow (s : State) (e : MapIndex) (m : MatchEntry) :
    (s.writeShadow e m).ledger = s.ledger := by
  unfold State.writeShadow
  split <;> rfl

theorem State.writeStallLimit_ledgerKept (s : State) (v : BitVec 16) :
    s.LedgerKept (s.writeStallLimit v) :=
  (State.reportStall_ledgerKept _).after rfl

theorem State.ledger_writeBoundaries (s : State) (b : Vector (BitVec 16) 7) :
    (s.writeBoundaries b).ledger = s.ledger := by
  unfold State.writeBoundaries
  split
  · rfl
  · exact State.ledger_raise s _

/-- A field that takes effect keeps the books (R183). -/
theorem State.takeField_ledgerKept (s : State) (f : Field) (bytes : List Byte) :
    s.LedgerKept (s.takeField f bytes) := by
  cases f
  case stallLimit => exact s.writeStallLimit_ledgerKept _
  case boundaries => exact .of_ledger_eq (s.ledger_writeBoundaries _)
  case command => exact s.writeCommand_ledgerKept _ _
  case shadowEntry e => exact .of_ledger_eq (s.ledger_writeShadow e _)
  all_goals exact .of_ledger_eq rfl

theorem State.writeByte_ledgerKept (s : State) (f : Field) (i : Nat) (b : Byte) :
    s.LedgerKept (s.writeByte f i b) := by
  unfold State.writeByte
  split
  · split
    · split
      · exact (State.takeField_ledgerKept _ f _).after rfl
      · exact .of_ledger_eq rfl
    · exact .of_ledger_eq rfl
  · exact .of_ledger_eq rfl

theorem State.windowWrite_ledgerKept (s : State) (b : Byte) : s.LedgerKept (s.windowWrite b) := by
  unfold State.windowWrite
  split
  · have hack : s.LedgerKept { s with port.ack := true } := .of_ledger_eq rfl
    cases fieldAt s.port.offset with
    | none => exact .of_ledger_eq rfl
    | some p => exact (hack.trans (State.writeByte_ledgerKept _ p.1 p.2 b)).trans (.of_ledger_eq rfl)
  all_goals exact .refl s

theorem State.ledger_i2cAddress (s : State) (address : BitVec 7) (direction : I2cDirection) :
    (s.i2cAddress address direction).ledger = s.ledger := by
  unfold State.i2cAddress
  split <;> rfl

theorem State.ledger_offsetWrite (s : State) (high low : Byte) :
    (s.offsetWrite high low).ledger = s.ledger := by
  unfold State.offsetWrite
  split <;> rfl

/-- A byte read changes the latch, the incident queue and the port only (R172, R181). -/
theorem State.ledger_sendAt (s : State) (offset : BitVec 16) : (s.sendAt offset).ledger = s.ledger := by
  have h : (s.readEffect offset).ledger = s.ledger := by
    unfold State.readEffect State.latchField State.removeHeadRecord
    split
    · rfl
    · split
      · split <;> rfl
      · split
        · split <;> rfl
        · rfl
  exact h

/-! ### Links, credits and the timer -/

theorem State.ledger_memoryLinkUp (s : State) : s.memoryLinkUp.ledger = s.ledger := by
  unfold State.memoryLinkUp
  split
  · rw [State.ledger_raise]; rfl
  · rfl
  · rfl

theorem State.ledger_creditExcess (s : State) (case count : Nat) :
    (s.creditExcess case count).ledger = s.ledger := by
  rw [State.creditExcess, State.ledger_raise, State.ledger_countGlobal]

theorem State.ledger_creditGrant (s : State) (n : Nat) : (s.creditGrant n).ledger = s.ledger := by
  unfold State.creditGrant
  split
  · rfl
  · rfl
  · exact s.ledger_creditExcess 1 n

theorem State.ledger_creditReturn (s : State) (k : Nat) : (s.creditReturn k).ledger = s.ledger := by
  unfold State.creditReturn
  split
  · rfl
  · exact s.ledger_creditExcess 3 k
  · split
    · rfl
    · rw [State.ledger_creditExcess]; rfl

theorem State.ledger_autoExpiry (s : State) : s.autoExpiry.ledger = s.ledger := by
  unfold State.autoExpiry
  cases s.stats.bank.state with
  | empty => rfl
  | locked => exact (State.ledger_raise (s.countGlobal .snapshotsMissed 1) _).trans rfl

/-! ### Every command -/

/-- The commands at which the books may change beyond what joins the answer list: the resets, the link events
that dissolve or rename what is owed, the match, the two leavings, and the time count's advance. -/
def turnsLedger : Instr → Bool
  | .powerOnReset | .resetNAssertion _ | .fabricLinkUp | .fabricLinkDown | .memoryLinkDown
  | .matchResponse | .realResponseLeaves | .answerLeaves | .timeCountAdvance => true
  | _ => false

/-- A command that acts only while the part runs leaves the state alone, or takes its effect (R189). -/
theorem of_whenRunning (P : State → Prop) {s t : State} {f : State → State}
    (h : (.next (s.whenRunning f) : Host.Outcome State Fault Refusal) = .next t) (hs : P s) (hf : P (f s)) :
    P t := by
  cases h
  exact State.whenRunning_keeps hs (fun _ => hf)

theorem ledgerKept_of_whenRunning {s t : State} {f : State → State}
    (h : (.next (s.whenRunning f) : Host.Outcome State Fault Refusal) = .next t)
    (hf : s.LedgerKept (f s)) : s.LedgerKept t :=
  of_whenRunning s.LedgerKept h (.refl s) hf

theorem exec_ledgerKept {c : Instr} {s t : State} (h : exec c s = .next t)
    (hc : turnsLedger c = false) : s.LedgerKept t := by
  cases c
  case resetEnd straps =>
    cases h
    split
    · exact .refl s
    · exact .of_ledger_eq rfl
    · exact .of_ledger_eq rfl
  case memoryLinkUp => exact ledgerKept_of_whenRunning h (.of_ledger_eq s.ledger_memoryLinkUp)
  case creditGrant m => exact ledgerKept_of_whenRunning h (.of_ledger_eq (s.ledger_creditGrant _))
  case creditReturn m => exact ledgerKept_of_whenRunning h (.of_ledger_eq (s.ledger_creditReturn _))
  case fabricRequestArrival req => exact ledgerKept_of_whenRunning h (s.arrive_ledgerKept req)
  case placementRetry => exact ledgerKept_of_whenRunning h s.retryPlacement_ledgerKept
  case intakeStall => exact ledgerKept_of_whenRunning h s.reportStall_ledgerKept
  case periodBoundary cls =>
    refine ledgerKept_of_whenRunning h ?_
    split
    · exact .of_ledger_eq (s.ledger_takeBoundary cls false)
    · exact .refl s
  case forwarding => exact ledgerKept_of_whenRunning h s.forwardChoice_ledgerKept
  case sendCompletion => exact ledgerKept_of_whenRunning h (.of_ledger_eq rfl)
  case deadlineExpiry slot => exact ledgerKept_of_whenRunning h (s.expireSlot_ledgerKept slot)
  case memoryResponseTaken resp => exact ledgerKept_of_whenRunning h (s.takeResponse_ledgerKept resp)
  case quiesceCompletion => exact ledgerKept_of_whenRunning h (.of_ledger_eq s.ledger_completeQuiesce)
  case autoSnapshotExpiry =>
    refine ledgerKept_of_whenRunning h ?_
    split
    · exact .of_ledger_eq s.ledger_autoExpiry
    · exact .refl s
  case i2cAddress address direction =>
    exact ledgerKept_of_whenRunning h (.of_ledger_eq (s.ledger_i2cAddress address direction))
  case offsetWrite high low => exact ledgerKept_of_whenRunning h (.of_ledger_eq (s.ledger_offsetWrite high low))
  case transferEnd => exact ledgerKept_of_whenRunning h (.of_ledger_eq rfl)
  case windowWrite byte => exact ledgerKept_of_whenRunning h (s.windowWrite_ledgerKept byte)
  case fieldLatch =>
    refine ledgerKept_of_whenRunning h ?_
    split
    · exact .of_ledger_eq (s.ledger_sendAt _)
    all_goals exact .refl s
  case incidentHeadLatch => exact ledgerKept_of_whenRunning h (.of_ledger_eq (s.ledger_sendAt _))
  case incidentHeadRemove => exact ledgerKept_of_whenRunning h (.of_ledger_eq (s.ledger_sendAt _))
  case stagedSettingWrite cls field value => exact ledgerKept_of_whenRunning h (.of_ledger_eq rfl)
  case shadowEntryWrite index value =>
    exact ledgerKept_of_whenRunning h (.of_ledger_eq (s.ledger_writeShadow index value))
  case defaultClassWrite value => exact ledgerKept_of_whenRunning h (.of_ledger_eq rfl)
  case stallLimitWrite value => exact ledgerKept_of_whenRunning h (s.writeStallLimit_ledgerKept value)
  case autoSnapshotIntervalWrite value => exact ledgerKept_of_whenRunning h (.of_ledger_eq rfl)
  case histogramBoundariesWrite values =>
    exact ledgerKept_of_whenRunning h (.of_ledger_eq (s.ledger_writeBoundaries values))
  case alertFlagsWrite value => exact ledgerKept_of_whenRunning h (.of_ledger_eq rfl)
  case alertEnablesWrite value => exact ledgerKept_of_whenRunning h (.of_ledger_eq rfl)
  case quiesce b => exact ledgerKept_of_whenRunning h (s.commandQuiesce_ledgerKept b)
  case resume b => exact ledgerKept_of_whenRunning h (s.commandResume_ledgerKept b)
  case mapSwap b => exact ledgerKept_of_whenRunning h (s.commandMapSwap_ledgerKept b)
  case classCommit b => exact ledgerKept_of_whenRunning h (s.commandCommit_ledgerKept b)
  case classApply b => exact ledgerKept_of_whenRunning h (s.commandApply_ledgerKept b)
  case classDiscard b => exact ledgerKept_of_whenRunning h (s.commandDiscard_ledgerKept b)
  case purge b => exact ledgerKept_of_whenRunning h (s.commandPurge_ledgerKept b)
  case snapshot b => exact ledgerKept_of_whenRunning h (s.commandSnapshot_ledgerKept b)
  case snapshotRelease b => exact ledgerKept_of_whenRunning h (s.commandRelease_ledgerKept b)
  case statsClear b => exact ledgerKept_of_whenRunning h (s.commandStatsClear_ledgerKept b)
  case incidentsClear b => exact ledgerKept_of_whenRunning h (s.commandIncidentsClear_ledgerKept b)
  case defaults b => exact ledgerKept_of_whenRunning h (s.commandDefaults_ledgerKept b)
  case unknownCommandCode code b => exact ledgerKept_of_whenRunning h (s.writeCommand_ledgerKept code b)
  all_goals simp [turnsLedger] at hc

end Sys2Proof.Machine


namespace Sys2Proof.Machine

set_option Elab.async false

/-! ## The fabric port's rules at every step (R17, R141, R150, R153) -/

/-- From `s` to `t` the two rules of the fabric port go on holding. -/
def State.KeepsFabricPort (s t : State) : Prop :=
  s.FabricDownSound → t.FabricDownSound ∧ (s.ChannelSound → t.ChannelSound)

theorem State.KeepsFabricPort.refl (s : State) : s.KeepsFabricPort s := fun h => ⟨h, id⟩

theorem State.LedgerKept.keepsFabricPort {s t : State} (h : s.LedgerKept t) : s.KeepsFabricPort t :=
  fun hs => ⟨h.down hs, h.channel hs⟩

/-- With the link DOWN a sound channel is idle, so a link-up brings nothing that waits (R140). -/
theorem State.fabricLinkUp_keepsFabricPort (s : State) : s.KeepsFabricPort s.fabricLinkUp := by
  unfold State.fabricLinkUp
  split
  · rename_i hl
    intro hs
    refine ⟨.of_up (by simp), fun hch => ?_⟩
    obtain ⟨-, -, -, -, ha, hm⟩ := hs hl
    have hidle : s.ret.channel = .idle := by
      cases hc : s.ret.channel with
      | idle => rfl
      | real => have := (hch.of_real hc).1; rw [hl] at this; cases this
      | answer => have := (hch.of_answer hc).1; rw [hl] at this; cases this
    simp [State.ChannelSound, hidle, hm, ha]
  · exact .refl s

/-- What a fabric link-down leaves of the ledger (R153). -/
theorem State.ledger_fabricLinkDown {s : State} (h : s.ret.link = .up) :
    s.fabricLinkDown.ledger = { s.dropIntake.mapSlots SlotState.fabricDown with
      pool := HoldPool.empty
      ret :=
        { link := .down, channel := .idle, register := s.ret.register.fabricDown, answers := []
          turn := s.ret.turn } : State }.ledger := by
  rw [State.fabricLinkDown, h]
  simp only [State.ledger_completeQuiesce, State.ledger_raise, State.ledger_countGlobal]

theorem State.dropIntake_register (s : State) : s.dropIntake.intake.register = .empty := by
  unfold State.dropIntake
  split <;> rfl

theorem ReturnRegister.isMatched_fabricDown (x : ReturnRegister) : x.fabricDown.isMatched = false := by
  cases x <;> rfl

/-- A fabric link-down dissolves every slot's debt (R137). -/
theorem SlotState.fabricDown_owesNothing (x : SlotState) :
    x.fabricDown = .free ∨ ∃ r : SlotRecord, x.fabricDown = .expired r false := by
  cases x <;> simp [SlotState.fabricDown]

theorem State.fabricLinkDown_keepsFabricPort (s : State) : s.KeepsFabricPort s.fabricLinkDown := by
  cases hl : s.ret.link with
  | down => rw [State.fabricLinkDown, hl]; exact .refl s
  | up =>
    have h := State.ledger_fabricLinkDown hl
    refine fun _ => ⟨.of_ledger_eq h fun _ => ⟨s.dropIntake_register, fun e => ?_, fun c => ?_,
      fun k => ?_, rfl, ReturnRegister.isMatched_fabricDown _⟩, fun _ => ?_⟩
    · simp [HoldPool.empty]
    · simp [HoldPool.empty]
    · have := State.slots_mapSlots s.dropIntake SlotState.fabricDown k
      simp only [this]
      exact SlotState.fabricDown_owesNothing _
    · have hret := congrArg Ledger.ret h
      simp only [State.ledger] at hret
      simp [State.ChannelSound, hret]

/-- With the link DOWN no slot is in flight, so none joins the answer list (R136). -/
theorem State.lostOrder_of_fabricDown {s : State}
    (h : ∀ k : SlotId, s.transit.slots[k].state = .free
      ∨ ∃ r : SlotRecord, s.transit.slots[k].state = .expired r false) : s.lostOrder = [] := by
  rw [State.lostOrder, List.map_eq_nil_iff, List.filter_eq_nil_iff]
  intro k _
  rcases h k with hk | ⟨r, hk⟩ <;> rw [hk] <;> simp [SlotState.isInFlight]

theorem State.memoryLinkDown_joined (s : State) (h : s.mem.link ≠ .down) :
    ∃ p : State, s.memoryLinkDown = p.chooseOffer
      ∧ p.ledger = ((s.mapSlots SlotState.memoryDown).joinAnswers s.lostOrder).ledger := by
  unfold State.memoryLinkDown
  split
  · rename_i hd; exact absurd hd h
  all_goals
    refine ⟨_, rfl, ?_⟩
    rw [State.ledger_completeQuiesce, State.ledger_raise, State.ledger_countGlobal]
    rfl

theorem State.memoryLinkDown_keepsFabricPort (s : State) : s.KeepsFabricPort s.memoryLinkDown := by
  by_cases hm : s.mem.link = .down
  · rw [State.memoryLinkDown, hm]; exact .refl s
  · obtain ⟨p, heq, hp⟩ := s.memoryLinkDown_joined hm
    rw [heq]
    refine fun hs => ⟨.chooseOffer (.of_ledger_eq hp fun hd => ?_),
      fun hch => .chooseOffer_of_joined (congrArg Ledger.ret hp) hch⟩
    obtain ⟨hr, he, hq, hk, ha, hx⟩ := hs hd
    refine ⟨hr, he, hq, fun k => .inl ?_, ?_, hx⟩
    · rw [State.joinAnswers_transit, State.slots_mapSlots]
      rcases hk k with hk | ⟨r, hk⟩ <;> rw [hk] <;> rfl
    · simp [ha, State.lostOrder_of_fabricDown hk]

/-! ### The match -/

/-- A slot that owes an answer means the fabric link is UP (R137). -/
theorem State.not_fabricDownSound_of_owing {s : State} {k : SlotId} {r : SlotRecord}
    (h : s.transit.slots[k].state = .expired r true ∨ s.transit.slots[k].state = .lost r)
    (hd : s.ret.link = .down) : ¬ s.FabricDownSound := by
  intro hs
  obtain ⟨-, -, -, hslot, -⟩ := hs hd
  have := hslot k
  rcases h with h | h <;> rw [h] at this <;> simp at this

theorem State.ledger_supersede (s : State) (k : SlotId) (r : SlotRecord) (resp : MemResponse) :
    ∃ p : State, s.supersede k r resp = p.chooseOffer
      ∧ p.ledger = ((s.withdrawAnswer k).deliver k r resp .supersede).ledger :=
  ⟨_, rfl, by rw [State.ledger_raise, State.ledger_countClass]⟩

theorem State.ledger_complete (s : State) (k : SlotId) (r : SlotRecord) (overdue : Bool)
    (resp : MemResponse) :
    ∃ p : State, s.complete k r overdue resp = p.chooseOffer
      ∧ p.ledger = (s.deliver k r resp .completion).ledger :=
  ⟨_, rfl, by rw [State.ledger_completeQuiesce, State.ledger_countClass]; rfl⟩

theorem State.ledger_absorb (s : State) (k : SlotId) (r : SlotRecord) :
    (s.absorb k r).ledger = { s.setSlotState k .free with ret.register := .empty }.ledger := by
  rw [State.absorb, State.ledger_raise, State.ledger_countClass]

theorem State.ledger_stray (s : State) (k : SlotId) (resp : MemResponse) :
    (s.stray k resp).ledger = { s with ret.register := .empty }.ledger := by
  rw [State.stray, State.ledger_raise, State.ledger_countGlobal]

/-- While the response is UNMATCHED a sound channel does not offer the real response. -/
theorem State.ChannelSound.not_real {s : State} {resp : MemResponse} (hs : s.ChannelSound)
    (hr : s.ret.register = .unmatched resp) : s.ret.channel ≠ .real := by
  intro hc
  have := (hs.of_real hc).2
  rw [hr] at this
  cases this

theorem State.complete_keepsFabricPort {s : State} {k : SlotId} {r : SlotRecord} {d : Option Time}
    {overdue : Bool} {resp : MemResponse} (hr : s.ret.register = .unmatched resp)
    (hk : s.transit.slots[k].state = .inFlight r d overdue) :
    s.KeepsFabricPort (s.complete k r overdue resp) := by
  obtain ⟨p, heq, hp⟩ := s.ledger_complete k r overdue resp
  have hret : p.ret = { s.ret with register := .matched (matchedResponse r resp .completion) } :=
    congrArg Ledger.ret hp
  rw [heq]
  refine fun hs => ⟨.chooseOffer (hs.of_busy (by rw [hret]) (State.not_fabricDownSound_of_inFlight hk)),
    fun hch => .chooseOffer (fun hc => ?_) (fun hc => ?_)⟩ <;> rw [hret] at hc ⊢
  · exact absurd hc (hch.not_real hr)
  · exact hch.of_answer hc

/-- A head that is another owner's stays listed when a slot's reference leaves (R149). -/
theorem head?_filter_of_ne {l : List Owner} {o : Owner} {k : SlotId} (h : l.head? = some o)
    (ho : o ≠ .slot k) : (l.filter (fun o => decide (o ≠ .slot k))).head? = some o := by
  cases l with
  | nil => cases h
  | cons a rest =>
    cases h
    simp [ho]

theorem State.supersede_keepsFabricPort {s : State} {k : SlotId} {r : SlotRecord} {resp : MemResponse}
    (hr : s.ret.register = .unmatched resp)
    (hk : s.transit.slots[k].state = .expired r true ∨ s.transit.slots[k].state = .lost r) :
    s.KeepsFabricPort (s.supersede k r resp) := by
  obtain ⟨p, heq, hp⟩ := s.ledger_supersede k r resp
  have hret : p.ret = ((s.withdrawAnswer k).deliver k r resp .supersede).ret := congrArg Ledger.ret hp
  rw [heq]
  refine fun hs => ⟨.chooseOffer (hs.of_busy (by rw [hret]; rfl) (State.not_fabricDownSound_of_owing hk)),
    fun hch => .chooseOffer (fun hc => ?_) (fun hc => ?_)⟩ <;>
    rw [hret] at hc ⊢ <;> rw [State.deliver_ret_channel, State.withdrawAnswer] at hc
  · split at hc
    · cases hc
    · exact absurd hc (hch.not_real hr)
  · split at hc
    · cases hc
    · rename_i hhead
      obtain ⟨hl, ha⟩ := hch.of_answer hc
      refine ⟨hl, fun hnil => ?_⟩
      obtain ⟨o, rest, hcons⟩ := List.exists_cons_of_ne_nil ha
      have ho : o ≠ .slot k := fun ho => hhead ⟨hc, by rw [hcons, ho]; rfl⟩
      have := head?_filter_of_ne (l := s.ret.answers) (by rw [hcons]; rfl) ho
      rw [State.deliver_ret_answers, State.withdrawAnswer_ret_answers] at hnil
      rw [hnil] at this
      cases this

/-- A response that is discarded leaves the port's rules as they are (R129, R130). -/
theorem State.discarded_keepsFabricPort {s t : State} {resp : MemResponse}
    (hr : s.ret.register = .unmatched resp) (hret : t.ret = { s.ret with register := .empty })
    (hdown : s.FabricDownSound → t.FabricDownSound) : s.KeepsFabricPort t := by
  refine fun hs => ⟨hdown hs, fun hch => ?_⟩
  unfold State.ChannelSound at hch ⊢
  rw [hret]
  rw [hr] at hch
  exact hch

theorem State.absorb_keepsFabricPort {s : State} {k : SlotId} (r : SlotRecord) {resp : MemResponse}
    (hr : s.ret.register = .unmatched resp) : s.KeepsFabricPort (s.absorb k r) := by
  have h := s.ledger_absorb k r
  refine State.discarded_keepsFabricPort hr (congrArg Ledger.ret h) fun hs => .of_ledger_eq h fun hd => ?_
  obtain ⟨hi, he, hq, hslot, ha, -⟩ := hs hd
  refine ⟨hi, he, hq, fun i => ?_, ha, rfl⟩
  have := s.slots_setSlotState k i .free
  simp only [this]
  split
  · exact .inl rfl
  · exact hslot i

theorem State.stray_keepsFabricPort {s : State} (k : SlotId) {resp : MemResponse}
    (hr : s.ret.register = .unmatched resp) : s.KeepsFabricPort (s.stray k resp) := by
  have h := s.ledger_stray k resp
  refine State.discarded_keepsFabricPort hr (congrArg Ledger.ret h) fun hs => .of_ledger_eq h fun hd => ?_
  obtain ⟨hi, he, hq, hslot, ha, -⟩ := hs hd
  exact ⟨hi, he, hq, hslot, ha, rfl⟩

theorem State.matchWith_keepsFabricPort {s : State} {resp : MemResponse}
    (hr : s.ret.register = .unmatched resp) : s.KeepsFabricPort (s.matchWith resp) := by
  unfold State.matchWith
  dsimp only
  split
  · split
    · exact State.complete_keepsFabricPort hr ‹_›
    · exact State.supersede_keepsFabricPort hr (.inl ‹_›)
    · exact State.supersede_keepsFabricPort hr (.inr ‹_›)
    · exact State.absorb_keepsFabricPort _ hr
    · exact State.stray_keepsFabricPort _ hr
  · exact State.stray_keepsFabricPort _ hr

/-! ### What leaves -/

/-- Once an offer has left, the channel is idle and its next choice is sound (R150). -/
theorem State.ChannelSound.chooseOffer_of_idle {p : State} (h : p.ret.channel = .idle) :
    p.chooseOffer.ChannelSound :=
  .chooseOffer (by simp [h]) (by simp [h])

theorem State.enterTotal_ret (s : State) (r : RealResponse) : (s.enterTotal r).ret = s.ret := by
  unfold State.enterTotal
  split <;> rfl

theorem State.realLeaves_keepsFabricPort (s : State) : s.KeepsFabricPort s.realLeaves := by
  unfold State.realLeaves
  split
  · rename_i r _ hr
    refine fun hs => ⟨.chooseOffer (hs.of_busy (by rw [State.enterTotal_ret]) fun hd hs => ?_),
      fun _ => .chooseOffer_of_idle (by rw [State.enterTotal_ret])⟩
    obtain ⟨-, -, -, -, -, hm⟩ := hs hd
    rw [hr] at hm
    cases hm
  · exact .refl s

theorem State.ownerAnswered_ret (s : State) (o : Owner) : (s.ownerAnswered o).ret = s.ret := by
  unfold State.ownerAnswered
  split <;> split <;> rfl

theorem State.answerLeaves_keepsFabricPort (s : State) : s.KeepsFabricPort s.answerLeaves := by
  unfold State.answerLeaves
  split
  · rename_i o rest _ ha
    refine fun hs => ⟨.chooseOffer (hs.of_busy (by rw [State.ownerAnswered_ret]) fun hd hs => ?_),
      fun _ => .chooseOffer_of_idle (by rw [State.ownerAnswered_ret])⟩
    obtain ⟨-, -, -, -, hnil, -⟩ := hs hd
    rw [ha] at hnil
    cases hnil
  · exact .refl s

/-! ### Resets, and every step -/

/-- With both links DOWN and every register EMPTY, as a reset leaves them, the port's rules hold (R189). -/
theorem State.keepsFabricPort_of_reset {s t : State} (hret : t.ret = State.reset.ret)
    (hreg : t.intake = State.reset.intake) (hpool : t.pool = State.reset.pool)
    (htransit : t.transit = State.reset.transit) : s.KeepsFabricPort t := by
  refine fun _ => ⟨fun _ => ?_, fun _ => ?_⟩
  · rw [hret, hreg, hpool, htransit]
    refine ⟨rfl, fun e => ?_, fun c => ?_, fun k => .inl ?_, rfl, rfl⟩ <;>
      simp [State.reset, HoldPool.empty]
  · unfold State.ChannelSound
    rw [hret]
    simp [State.reset]

theorem keepsFabricPort_of_whenRunning {s t : State} {f : State → State}
    (h : (.next (s.whenRunning f) : Host.Outcome State Fault Refusal) = .next t)
    (hf : s.KeepsFabricPort (f s)) : s.KeepsFabricPort t :=
  of_whenRunning s.KeepsFabricPort h (.refl s) hf

theorem exec_keepsFabricPort {c : Instr} {s t : State} (h : exec c s = .next t) :
    s.KeepsFabricPort t := by
  cases hc : turnsLedger c with
  | false => exact (exec_ledgerKept h hc).keepsFabricPort
  | true =>
    cases c
    case powerOnReset => cases h; exact State.keepsFabricPort_of_reset rfl rfl rfl rfl
    case resetNAssertion lowNs =>
      simp only [exec, execResetNAssertion] at h
      split at h
      · cases h; exact .refl s
      · exact keepsFabricPort_of_whenRunning h (State.keepsFabricPort_of_reset rfl rfl rfl rfl)
    case fabricLinkUp => exact keepsFabricPort_of_whenRunning h s.fabricLinkUp_keepsFabricPort
    case fabricLinkDown => exact keepsFabricPort_of_whenRunning h s.fabricLinkDown_keepsFabricPort
    case memoryLinkDown => exact keepsFabricPort_of_whenRunning h s.memoryLinkDown_keepsFabricPort
    case matchResponse =>
      refine keepsFabricPort_of_whenRunning h ?_
      split
      · exact State.matchWith_keepsFabricPort ‹_›
      all_goals exact .refl s
    case realResponseLeaves => exact keepsFabricPort_of_whenRunning h s.realLeaves_keepsFabricPort
    case answerLeaves => exact keepsFabricPort_of_whenRunning h s.answerLeaves_keepsFabricPort
    case timeCountAdvance => exact keepsFabricPort_of_whenRunning h fun hs => ⟨hs, id⟩
    all_goals simp [turnsLedger] at hc

/-- Settles O13: every command keeps the two rules, the quiet ones because they keep the ledger's books. -/
theorem fabricPortKept : Obligations.FabricPortKept := by
  intro s t h
  unfold step at h
  split at h
  · cases h
    exact State.KeepsFabricPort.refl s
  · have hk := exec_keepsFabricPort h
    exact hk

end Sys2Proof.Machine


namespace Sys2Proof.Machine

set_option Elab.async false

/-! ## The clock and the reset-cause record (R2, R190) -/

/-- An effect that leaves the clock and the reset-cause record, held in reset or running. -/
theorem clock_of_whenRunning {s t : State} {f : State → State}
    (h : (.next (s.whenRunning f) : Host.Outcome State Fault Refusal) = .next t)
    (hf : (f s).time = s.time ∧ (f s).cause = s.cause) : t.time = s.time ∧ t.cause = s.cause :=
  of_whenRunning (fun u => u.time = s.time ∧ u.cause = s.cause) h ⟨rfl, rfl⟩ hf

theorem State.clock_of_ledger_eq {s t : State} (h : t.ledger = s.ledger) :
    t.time = s.time ∧ t.cause = s.cause :=
  ⟨congrArg Ledger.time h, congrArg Ledger.cause h⟩

theorem State.fabricLinkUp_clock (s : State) :
    s.fabricLinkUp.time = s.time ∧ s.fabricLinkUp.cause = s.cause := by
  unfold State.fabricLinkUp
  split <;> simp

theorem State.dropIntake_clock (s : State) :
    s.dropIntake.time = s.time ∧ s.dropIntake.cause = s.cause := by
  unfold State.dropIntake
  split <;> simp

theorem State.fabricLinkDown_clock (s : State) :
    s.fabricLinkDown.time = s.time ∧ s.fabricLinkDown.cause = s.cause := by
  cases hl : s.ret.link with
  | down => simp [State.fabricLinkDown, hl]
  | up =>
    obtain ⟨htime, hcause⟩ := State.clock_of_ledger_eq (State.ledger_fabricLinkDown hl)
    exact ⟨htime.trans s.dropIntake_clock.1, hcause.trans s.dropIntake_clock.2⟩

theorem State.memoryLinkDown_clock (s : State) :
    s.memoryLinkDown.time = s.time ∧ s.memoryLinkDown.cause = s.cause := by
  by_cases hm : s.mem.link = .down
  · simp [State.memoryLinkDown, hm]
  · obtain ⟨p, heq, hp⟩ := s.memoryLinkDown_joined hm
    rw [heq]
    simpa using State.clock_of_ledger_eq hp

theorem State.matchWith_clock (s : State) (resp : MemResponse) :
    (s.matchWith resp).time = s.time ∧ (s.matchWith resp).cause = s.cause := by
  unfold State.matchWith
  dsimp only
  split
  · split
    · simp [State.complete]
    · simp [State.supersede]
    · simp [State.supersede]
    · simp [State.absorb]
    · simp [State.stray]
  · simp [State.stray]

theorem State.enterTotal_clock (s : State) (r : RealResponse) :
    (s.enterTotal r).time = s.time ∧ (s.enterTotal r).cause = s.cause := by
  unfold State.enterTotal
  split <;> simp

theorem State.ownerAnswered_clock (s : State) (o : Owner) :
    (s.ownerAnswered o).time = s.time ∧ (s.ownerAnswered o).cause = s.cause := by
  unfold State.ownerAnswered
  split <;> split <;> simp

theorem State.realLeaves_clock (s : State) :
    s.realLeaves.time = s.time ∧ s.realLeaves.cause = s.cause := by
  unfold State.realLeaves
  split
  · simpa using State.enterTotal_clock _ _
  · simp

theorem State.answerLeaves_clock (s : State) :
    s.answerLeaves.time = s.time ∧ s.answerLeaves.cause = s.cause := by
  unfold State.answerLeaves
  split
  · simpa using State.ownerAnswered_clock _ _
  · simp

/-- No command but a reset and the time count's advance touches the clock or the reset-cause record. -/
theorem exec_clock {c : Instr} {s t : State} (h : exec c s = .next t) (hreset : isReset c = false)
    (htime : c ≠ .timeCountAdvance) : t.time = s.time ∧ t.cause = s.cause := by
  cases hc : turnsLedger c with
  | false => exact ⟨(exec_ledgerKept h hc).time, (exec_ledgerKept h hc).cause⟩
  | true =>
    cases c
    case powerOnReset => cases hreset
    case resetNAssertion lowNs => cases hreset
    case fabricLinkUp => exact clock_of_whenRunning h s.fabricLinkUp_clock
    case fabricLinkDown => exact clock_of_whenRunning h s.fabricLinkDown_clock
    case memoryLinkDown => exact clock_of_whenRunning h s.memoryLinkDown_clock
    case matchResponse =>
      refine clock_of_whenRunning h ?_
      split
      · exact s.matchWith_clock _
      all_goals exact ⟨rfl, rfl⟩
    case realResponseLeaves => exact clock_of_whenRunning h s.realLeaves_clock
    case answerLeaves => exact clock_of_whenRunning h s.answerLeaves_clock
    case timeCountAdvance => exact absurd rfl htime
    all_goals simp [turnsLedger] at hc

/-- Settles O16, from what every command leaves of the clock. -/
theorem timeAdvancesAlone : Obligations.TimeAdvancesAlone := by
  refine ⟨fun s hs => ?_, fun c s t h hreset => ?_⟩
  · exact congrArg Host.Outcome.next (State.whenRunning_of_running hs _)
  · by_cases hc : c = .timeCountAdvance
    · subst hc
      exact ⟨of_whenRunning (fun u => u.cause = s.cause) h rfl rfl, fun h => absurd rfl h⟩
    · obtain ⟨htime, hcause⟩ := exec_clock h hreset hc
      exact ⟨hcause, fun _ => htime⟩

end Sys2Proof.Machine


namespace Sys2Proof.Machine

set_option Elab.async false

/-! ## What the fabric port offers (R141, R147) -/

theorem State.offered?_of_idle {s : State} (hc : s.ret.channel = .idle) : s.offered? = none := by
  rw [State.offered?, hc]

theorem State.offered?_of_real {s : State} {r : RealResponse} (hc : s.ret.channel = .real)
    (hr : s.ret.register = .matched r) :
    s.offered? = some ⟨r.source, r.tag,
      (match r.status with
        | .okay => .okay
        | .memfault => .memfault), r.data⟩ := by
  rw [State.offered?, hc, hr] <;> rfl

theorem State.offered?_of_answer {s : State} {o : Owner} (hc : s.ret.channel = .answer)
    (ha : s.ret.answers.head? = some o) : s.offered? = s.answerOf o := by
  obtain ⟨rest, hl⟩ := List.head?_eq_some_iff.mp ha
  rw [State.offered?, hc, hl]

/-- A real response on offer is in the register. -/
theorem State.isMatched_of_offered {s : State} {x : FabricResponse} (h : s.offered? = some x)
    (hc : s.ret.channel = .real) : s.ret.register.isMatched = true := by
  rw [State.offered?, hc] at h
  cases hr : s.ret.register with
  | matched r => rfl
  | empty => rw [hr] at h; cases h
  | unmatched resp => rw [hr] at h; cases h

/-- The real response on offer depends on the register only. -/
theorem State.offered?_congr_real {s t : State} (hs : s.ret.channel = .real) (ht : t.ret.channel = .real)
    (h : t.ret.register = s.ret.register) : t.offered? = s.offered? := by
  rw [State.offered?, State.offered?, hs, ht, h]

theorem State.answerOf_intake_malformed {s : State} {source : BitVec 6} {tag : BitVec 8}
    (h : s.intake.register = .rejecting source tag .malformed) :
    s.answerOf .intake = some ⟨source, tag, .malformed, []⟩ := by
  rw [State.answerOf, h]

theorem State.answerOf_intake_tagReuse {s : State} {source : BitVec 6} {tag : BitVec 8}
    (h : s.intake.register = .rejecting source tag .tagReuse) :
    s.answerOf .intake = some ⟨source, tag, .tagReuse, []⟩ := by
  rw [State.answerOf, h]

theorem State.answerOf_entry_cancelling {s : State} {e : EntryId} {r : HoldRecord}
    (h : s.pool.entries[e] = .cancelling r) :
    s.answerOf (.entry e) = some ⟨r.source, r.tag, .cancelled, []⟩ := by
  rw [State.answerOf, h]

theorem State.answerOf_slot_expired {s : State} {k : SlotId} {r : SlotRecord}
    (h : s.transit.slots[k].state = .expired r true) :
    s.answerOf (.slot k) = some ⟨r.source, r.tag, .timeout, []⟩ := by
  rw [State.answerOf, h]

theorem State.answerOf_slot_lost {s : State} {k : SlotId} {r : SlotRecord}
    (h : s.transit.slots[k].state = .lost r) :
    s.answerOf (.slot k) = some ⟨r.source, r.tag, .lost, []⟩ := by
  rw [State.answerOf, h]

/-- A slot that is owed an answer is EXPIRED owing TIMEOUT, or LOST (R147). -/
theorem State.owing_of_answerOf_slot {s : State} {k : SlotId} {x : FabricResponse}
    (h : s.answerOf (.slot k) = some x) :
    ∃ r : SlotRecord, s.transit.slots[k].state = .expired r true ∨ s.transit.slots[k].state = .lost r := by
  unfold State.answerOf at h
  dsimp only at h
  split at h
  · exact ⟨_, .inl ‹_›⟩
  · exact ⟨_, .inr ‹_›⟩
  all_goals cases h

/-! ## An open offer stands (R141, R149) -/

theorem State.OffersStand.refl (s : State) : s.OffersStand s := (State.LedgerKept.refl s).offers

theorem State.OffersStand.of_ledger_eq {s t : State} (h : t.ledger = s.ledger) : s.OffersStand t :=
  (State.LedgerKept.of_ledger_eq h).offers

/-- An offer that stood before the channel's choice stands after it. -/
theorem State.OffersStand.chooseOffer {s p : State} (h : s.OffersStand p) : s.OffersStand p.chooseOffer :=
  h.trans (.of_appended (joined := []) (fun hc => by rw [State.chooseOffer_of_offering hc])
    (fun _ => by simp) (by simp) (fun o x hx => by rwa [State.answerOf_chooseOffer]))

theorem State.fabricLinkUp_offersStand (s : State) : s.OffersStand s.fabricLinkUp := by
  unfold State.fabricLinkUp
  split
  · have h : s.OffersStand { s with ret.link := .up } :=
      .of_appended (joined := []) (fun _ => rfl) (fun _ => rfl) (by simp) (.refl s)
    exact h.trans (.of_ledger_eq (State.ledger_raise _ _))
  · exact .refl s

/-- A memory link-down makes an answer owed by a slot LOST, and leaves every other answer as it is (R136). -/
theorem State.answerOf_memoryDown {s : State} {o : Owner} {x : FabricResponse} (h : s.answerOf o = some x) :
    (s.mapSlots SlotState.memoryDown).answerOf o = some x
      ∨ (x.status = .timeout
        ∧ (s.mapSlots SlotState.memoryDown).answerOf o = some { x with status := .lost }) := by
  cases o with
  | intake => exact .inl h
  | entry e => exact .inl h
  | slot k =>
    have hstate : (s.mapSlots SlotState.memoryDown).transit.slots[k].state
        = s.transit.slots[k].state.memoryDown := by rw [State.slots_mapSlots]
    obtain ⟨r, hk | hk⟩ := State.owing_of_answerOf_slot h
    · rw [State.answerOf_slot_expired hk] at h
      cases h
      rw [hk] at hstate
      exact .inr ⟨rfl, State.answerOf_slot_lost hstate⟩
    · rw [State.answerOf_slot_lost hk] at h
      cases h
      rw [hk] at hstate
      exact .inl (State.answerOf_slot_lost hstate)

/-- At a memory link-down an open offer stays open; only TIMEOUT on offer becomes LOST (R136, R147). -/
theorem State.memoryLinkDown_offers (s : State) :
    (s.ret.channel ≠ .idle → s.memoryLinkDown.ret.channel = s.ret.channel)
      ∧ s.memoryLinkDown.ret.register = s.ret.register
      ∧ ∀ (o : Owner) (x : FabricResponse), s.ret.answers.head? = some o → s.answerOf o = some x →
          s.memoryLinkDown.ret.answers.head? = some o
            ∧ (s.memoryLinkDown.answerOf o = some x
              ∨ (x.status = .timeout ∧ s.memoryLinkDown.answerOf o = some { x with status := .lost })) := by
  by_cases hm : s.mem.link = .down
  · have h : s.memoryLinkDown = s := by rw [State.memoryLinkDown, hm]
    rw [h]
    exact ⟨fun _ => rfl, rfl, fun o x ha hx => ⟨ha, .inl hx⟩⟩
  · obtain ⟨p, heq, hp⟩ := s.memoryLinkDown_joined hm
    have hret : p.ret = { s.ret with answers := s.ret.answers ++ s.lostOrder } := congrArg Ledger.ret hp
    rw [heq]
    refine ⟨fun hc => ?_, by simp [hret], fun o x ha hx => ⟨by simp [hret, ha], ?_⟩⟩
    · rw [State.chooseOffer_of_offering] <;> rw [hret]
      exact hc
    · rw [State.answerOf_chooseOffer]
      exact (State.answerOf_memoryDown hx).imp (fun h => State.OwedKept.of_ledger_eq hp o x h)
        (fun ⟨hs, h⟩ => ⟨hs, State.OwedKept.of_ledger_eq hp o _ h⟩)

/-- A response that a slot takes or the port discards leaves open offers, where the slot owes nothing. -/
theorem State.OffersStand.of_register {s t : State} {resp : MemResponse} {x : ReturnRegister}
    (hr : s.ret.register = .unmatched resp) (hret : t.ret = { s.ret with register := x })
    (howed : s.OwedKept t) : s.OffersStand t :=
  .of_appended (joined := []) (fun _ => by rw [hret]) (fun h => by simp [hr, ReturnRegister.isMatched] at h)
    (by simp [hret]) howed

theorem State.complete_offersStand {s : State} {k : SlotId} {r : SlotRecord} {d : Option Time}
    {overdue : Bool} {resp : MemResponse} (hr : s.ret.register = .unmatched resp)
    (hk : s.transit.slots[k].state = .inFlight r d overdue) :
    s.OffersStand (s.complete k r overdue resp) := by
  obtain ⟨p, heq, hp⟩ := s.ledger_complete k r overdue resp
  have howed : s.OwedKept (s.setSlotState k .free) :=
    .setSlotState .free (by simp only [hk, ne_eq, reduceCtorEq, not_false_eq_true, and_self, implies_true])
  have h : s.OffersStand (s.deliver k r resp .completion) := .of_register hr rfl howed
  rw [heq]
  exact (h.trans (.of_ledger_eq hp)).chooseOffer

theorem State.absorb_offersStand {s : State} {k : SlotId} {r : SlotRecord} {resp : MemResponse}
    (hr : s.ret.register = .unmatched resp) (hk : s.transit.slots[k].state = .expired r false) :
    s.OffersStand (s.absorb k r) := by
  have howed : s.OwedKept (s.setSlotState k .free) := .setSlotState .free (by simp [-Fin.getElem_fin, hk])
  have h : s.OffersStand { s.setSlotState k .free with ret.register := .empty } := .of_register hr rfl howed
  exact h.trans (.of_ledger_eq (s.ledger_absorb k r))

theorem State.stray_offersStand {s : State} (k : SlotId) {resp : MemResponse}
    (hr : s.ret.register = .unmatched resp) : s.OffersStand (s.stray k resp) := by
  have h : s.OffersStand { s with ret.register := .empty } := .of_register hr rfl (.refl s)
  exact h.trans (.of_ledger_eq (s.ledger_stray k resp))

/-- A supersede leaves every open offer but that of its own slot's answer (R149). -/
theorem State.supersede_offers {s : State} {k : SlotId} {r : SlotRecord} {resp : MemResponse} {o : Owner}
    {x : FabricResponse} (hc : s.ret.channel = .answer) (ha : s.ret.answers.head? = some o)
    (hx : s.answerOf o = some x) (ho : o ≠ .slot k) :
    (s.supersede k r resp).ret.channel = .answer
      ∧ (s.supersede k r resp).ret.answers.head? = some o
      ∧ (s.supersede k r resp).answerOf o = some x := by
  obtain ⟨p, heq, hp⟩ := s.ledger_supersede k r resp
  have hret : p.ret = ((s.withdrawAnswer k).deliver k r resp .supersede).ret := congrArg Ledger.ret hp
  have hchannel : p.ret.channel = .answer := by
    rw [hret, State.deliver_ret_channel, State.withdrawAnswer]
    simp only [hc, ha, Option.some.injEq, ho, and_false, if_false]
  have howed : ((s.withdrawAnswer k).deliver k r resp .supersede).answerOf o = some x := by
    cases o with
    | intake => exact hx
    | entry e => exact hx
    | slot i =>
      have hik : i ≠ k := fun h => ho (congrArg Owner.slot h)
      have hslot := s.slots_setSlotState k i .free
      rw [if_neg hik] at hslot
      obtain ⟨q, hi | hi⟩ := State.owing_of_answerOf_slot hx
      · rw [State.answerOf_slot_expired hi] at hx
        rw [← hx]
        exact State.answerOf_slot_expired ((congrArg Slot.state hslot).trans hi)
      · rw [State.answerOf_slot_lost hi] at hx
        rw [← hx]
        exact State.answerOf_slot_lost ((congrArg Slot.state hslot).trans hi)
  rw [heq, State.chooseOffer_of_offering (by simp [hchannel])]
  refine ⟨hchannel, ?_, State.OwedKept.of_ledger_eq hp o x howed⟩
  rw [hret]
  exact head?_filter_of_ne ha ho

/-- The number a downstream tag spells (R13). -/
theorem toNat_of_tag (tag : BitVec 10) : tag.toNat = 8 * (tagSlot tag).val + (tagEpoch tag).toNat := by
  have := tag.isLt
  simp only [tagSlot, tagEpoch, Fin.ofNat, BitVec.toNat_ofNat]
  omega

/-- A match leaves every open answer, but where it supersedes the very slot whose answer is on offer (R149). -/
theorem State.matchWith_offers {s : State} {resp : MemResponse} {o : Owner} {x : FabricResponse}
    (hr : s.ret.register = .unmatched resp) (hc : s.ret.channel = .answer)
    (ha : s.ret.answers.head? = some o) (hx : s.answerOf o = some x) :
    ((s.matchWith resp).ret.channel = .answer ∧ (s.matchWith resp).ret.answers.head? = some o
        ∧ (s.matchWith resp).answerOf o = some x)
      ∨ ∃ k : SlotId, o = .slot k ∧ resp.tag.toNat = 8 * k.val + s.transit.slots[k].epoch.toNat := by
  unfold State.matchWith
  dsimp only
  split
  · rename_i hepoch
    by_cases ho : o = .slot (tagSlot resp.tag)
    · exact .inr ⟨tagSlot resp.tag, ho, by rw [hepoch]; exact toNat_of_tag resp.tag⟩
    · left
      split
      · exact (State.complete_offersStand hr ‹_›).answer o x hc ha hx
      · exact State.supersede_offers hc ha hx ho
      · exact State.supersede_offers hc ha hx ho
      · exact (State.absorb_offersStand hr ‹_›).answer o x hc ha hx
      · exact (State.stray_offersStand _ hr).answer o x hc ha hx
  · exact .inl ((State.stray_offersStand _ hr).answer o x hc ha hx)

end Sys2Proof.Machine


namespace Sys2Proof.Machine

set_option Elab.async false

theorem eq_or_eq_of_whenRunning {s t : State} {f : State → State}
    (h : (.next (s.whenRunning f) : Host.Outcome State Fault Refusal) = .next t) : t = s ∨ t = f s :=
  of_whenRunning (fun u => u = s ∨ u = f s) h (.inl rfl) (.inr rfl)

theorem offersStand_of_whenRunning {s t : State} {f : State → State}
    (h : (.next (s.whenRunning f) : Host.Outcome State Fault Refusal) = .next t)
    (hf : s.OffersStand (f s)) : s.OffersStand t :=
  of_whenRunning s.OffersStand h (.refl s) hf

theorem State.realLeaves_of_not_offering {s : State}
    (h : s.ret.channel ≠ .real ∨ s.ret.register.isMatched = false) :
    s.realLeaves = s := by
  unfold State.realLeaves
  split
  · rename_i r hc hr
    rw [hc, hr] at h
    simp [ReturnRegister.isMatched] at h
  · rfl

theorem State.answerLeaves_of_not_offering {s : State} (h : s.ret.channel ≠ .answer ∨ s.ret.answers = []) :
    s.answerLeaves = s := by
  unfold State.answerLeaves
  split
  · rename_i hc ha
    rw [hc, ha] at h
    simp at h
  · rfl

/-- The real response on offer stands at every command but its own leaving, a fabric link-down and a reset. -/
theorem exec_realOffer {c : Instr} {s t : State} (h : exec c s = .next t) (hreset : isReset c = false)
    (hdown : c ≠ .fabricLinkDown) (hleaves : c ≠ .realResponseLeaves) (hc : s.ret.channel = .real)
    (hm : s.ret.register.isMatched = true) : t.ret.channel = .real ∧ t.ret.register = s.ret.register := by
  cases hcl : turnsLedger c with
  | false => exact (exec_ledgerKept h hcl).offers.real hc hm
  | true =>
    cases c
    case powerOnReset => cases hreset
    case resetNAssertion lowNs => cases hreset
    case fabricLinkUp => exact (offersStand_of_whenRunning h s.fabricLinkUp_offersStand).real hc hm
    case fabricLinkDown => exact absurd rfl hdown
    case memoryLinkDown =>
      obtain ⟨hchannel, hregister, -⟩ := s.memoryLinkDown_offers
      rcases eq_or_eq_of_whenRunning h with rfl | rfl
      · exact ⟨hc, rfl⟩
      · exact ⟨(hchannel (by simp [hc])).trans hc, hregister⟩
    case matchResponse =>
      refine (offersStand_of_whenRunning h ?_).real hc hm
      split
      · rename_i hr
        rw [hr] at hm
        cases hm
      all_goals exact .refl s
    case realResponseLeaves => exact absurd rfl hleaves
    case answerLeaves =>
      refine (offersStand_of_whenRunning h ?_).real hc hm
      rw [State.answerLeaves_of_not_offering (.inl (by simp [hc]))]
      exact .refl s
    case timeCountAdvance => exact (offersStand_of_whenRunning h (.of_ret_eq rfl (.refl s))).real hc hm
    all_goals simp [turnsLedger] at hcl

/-- What a command leaves of the answer on offer: it stands, but for a memory link-down that makes TIMEOUT LOST
and a match that supersedes the very slot whose answer it is. -/
theorem exec_answerOffer {c : Instr} {s t : State} {o : Owner} {x : FabricResponse} (h : exec c s = .next t)
    (hreset : isReset c = false) (hdown : c ≠ .fabricLinkDown) (hleaves : c ≠ .answerLeaves)
    (hc : s.ret.channel = .answer) (ha : s.ret.answers.head? = some o) (hx : s.answerOf o = some x) :
    (t.ret.channel = .answer ∧ t.ret.answers.head? = some o
        ∧ (t.answerOf o = some x
          ∨ (c = .memoryLinkDown ∧ x.status = .timeout ∧ t.answerOf o = some { x with status := .lost })))
      ∨ (c = .matchResponse ∧ ∃ (k : SlotId) (resp : MemResponse), o = .slot k
          ∧ s.ret.register = .unmatched resp
          ∧ resp.tag.toNat = 8 * k.val + s.transit.slots[k].epoch.toNat) := by
  have hstands : ∀ {t : State}, s.OffersStand t → t.ret.channel = .answer ∧ t.ret.answers.head? = some o
      ∧ (t.answerOf o = some x
        ∨ (c = .memoryLinkDown ∧ x.status = .timeout ∧ t.answerOf o = some { x with status := .lost })) := by
    intro t ht
    obtain ⟨hc', ha', hx'⟩ := ht.answer o x hc ha hx
    exact ⟨hc', ha', .inl hx'⟩
  cases hcl : turnsLedger c with
  | false => exact .inl (hstands (exec_ledgerKept h hcl).offers)
  | true =>
    cases c
    case powerOnReset => cases hreset
    case resetNAssertion lowNs => cases hreset
    case fabricLinkUp => exact .inl (hstands (offersStand_of_whenRunning h s.fabricLinkUp_offersStand))
    case fabricLinkDown => exact absurd rfl hdown
    case memoryLinkDown =>
      obtain ⟨hchannel, -, hanswer⟩ := s.memoryLinkDown_offers
      obtain ⟨ha', hx'⟩ := hanswer o x ha hx
      rcases eq_or_eq_of_whenRunning h with rfl | rfl
      · exact .inl (hstands (.refl t))
      · exact .inl ⟨(hchannel (by simp [hc])).trans hc, ha', hx'.imp_right fun hlost => ⟨rfl, hlost⟩⟩
    case matchResponse =>
      rcases eq_or_eq_of_whenRunning h with rfl | rfl
      · exact .inl (hstands (.refl t))
      · split
        · rename_i resp hr
          rcases State.matchWith_offers hr hc ha hx with ⟨hc', ha', hx'⟩ | ⟨k, ho, htag⟩
          · exact .inl ⟨hc', ha', .inl hx'⟩
          · exact .inr ⟨rfl, k, resp, ho, hr, htag⟩
        all_goals exact .inl (hstands (.refl s))
    case realResponseLeaves =>
      refine .inl (hstands (offersStand_of_whenRunning h ?_))
      rw [State.realLeaves_of_not_offering (.inl (by simp [hc]))]
      exact .refl s
    case answerLeaves => exact absurd rfl hleaves
    case timeCountAdvance => exact .inl (hstands (offersStand_of_whenRunning h (.of_ret_eq rfl (.refl s))))
    all_goals simp [turnsLedger] at hcl

/-! ## What leaves the fabric port (R144, R148) -/

/-- The choice of an idle channel with the link UP, by what waits (R150). -/
theorem State.chooseOffer_of_idle {s : State} (hc : s.ret.channel = .idle) (hl : s.ret.link = .up) :
    s.chooseOffer = { s with ret.channel :=
      if s.ret.register.isMatched = true then
        if s.ret.answers = [] ∨ s.ret.turn = .real then .real else .answer
      else if s.ret.answers = [] then .idle else .answer } := by
  rw [s.chooseOffer_eq.1, s.chooseOffer_eq.2.2 hc hl]

/-- A real response that leaves frees the register and gives the turn to the answers (R144, R150). -/
theorem State.realLeaves_eq {s : State} {r : RealResponse} (hl : s.ret.link = .up)
    (hc : s.ret.channel = .real) (hr : s.ret.register = .matched r) :
    s.realLeaves = { (match r.origin with
        | .completion => s.countClass r.cls
            (.bin (histogramBin s.stats.boundaries (s.time - r.arrival).toNat)) 1
        | .supersede => s) with
      ret := { s.ret with
        register := .empty
        turn := .answer
        channel := if s.ret.answers = [] then .idle else .answer } } := by
  rw [State.realLeaves, hc, hr]
  dsimp only
  rw [State.chooseOffer_of_idle (by rw [State.enterTotal_ret]) (by rw [State.enterTotal_ret]; exact hl)]
  rw [State.enterTotal_ret]
  unfold State.enterTotal
  cases r.origin <;> rfl

/-- An owner's transition neither sees nor changes the response return block. -/
theorem State.ownerAnswered_with_ret (s : State) (x : ResponseReturn) (o : Owner) :
    { s with ret := x }.ownerAnswered o = { s.ownerAnswered o with ret := x } := by
  cases o with
  | intake => simp only [State.ownerAnswered]; cases s.intake.register <;> rfl
  | entry e => simp only [State.ownerAnswered]; cases s.pool.entries[e] <;> rfl
  | slot k =>
    simp only [State.ownerAnswered]
    cases s.transit.slots[k].state with
    | expired r owes => cases owes <;> rfl
    | _ => rfl

/-- An answer that leaves gives the turn to the real response, and its owner completes its transition, which
the channel's choice does not see (R148, R150). -/
theorem State.answerLeaves_eq {s : State} {o : Owner} {rest : List Owner} (hl : s.ret.link = .up)
    (hc : s.ret.channel = .answer) (ha : s.ret.answers = o :: rest) :
    s.answerLeaves = { s.ownerAnswered o with
      ret := { s.ret with
        answers := rest
        turn := .real
        channel := if s.ret.register.isMatched then .real else if rest = [] then .idle else .answer } } := by
  rw [State.answerLeaves, hc, ha]
  dsimp only
  rw [State.ownerAnswered_with_ret]
  refine (State.chooseOffer_of_idle (by rfl) (by exact hl)).trans ?_
  simp

/-- The intake's answer leaves it EMPTY (R148). -/
theorem State.ownerAnswered_intake {s : State} (h : (s.answerOf .intake).isSome = true) :
    s.ownerAnswered .intake = s.setIntake .empty := by
  unfold State.answerOf at h
  rw [State.ownerAnswered]
  cases hr : s.intake.register with
  | rejecting source tag owed => rfl
  | empty => simp [hr] at h
  | stalled q => simp [hr] at h

/-- A CANCELLING entry's answer leaves it FREE (R148). -/
theorem State.ownerAnswered_entry {s : State} {e : EntryId} (h : (s.answerOf (.entry e)).isSome = true) :
    s.ownerAnswered (.entry e) = s.setEntry e .free := by
  unfold State.answerOf at h
  rw [State.ownerAnswered]
  cases he : s.pool.entries[e] with
  | cancelling r => rfl
  | free => simp only [he, Option.isSome_none, Bool.false_eq_true] at h
  | queued r => simp only [he, Option.isSome_none, Bool.false_eq_true] at h

/-- A slot's answer leaves it EXPIRED owing nothing, or FREE where it was LOST (R148). -/
theorem State.ownerAnswered_slot {s : State} {k : SlotId} (h : (s.answerOf (.slot k)).isSome = true) :
    s.ownerAnswered (.slot k) = s.setSlotState k (match s.transit.slots[k].state with
      | .expired r _ => .expired r false
      | .free => .free
      | .inFlight _ _ _ => .free
      | .lost _ => .free) := by
  obtain ⟨x, hx⟩ := Option.isSome_iff_exists.mp h
  obtain ⟨r, hk | hk⟩ := State.owing_of_answerOf_slot hx <;> rw [State.ownerAnswered, hk]

/-- Settles O43: the offers by their definition, the standing of an open offer over all commands, and the two
leavings by what each makes of the block. -/
theorem responsesLeave : Obligations.ResponsesLeave := by
  refine ⟨fun s => ⟨State.offered?_of_idle, fun r => State.offered?_of_real, fun o rest hc ha => ?_⟩,
    fun c s t x h hx hreset hdown => ⟨fun hc hleaves => ?_, fun o rest hc ha hleaves => ?_⟩,
    fun s r hs hl hc hr => ?_, fun s o rest hs hl hc ha howes => ?_⟩
  · have hx := State.offered?_of_answer hc (o := o) (by rw [ha]; rfl)
    refine ⟨fun source tag ho => ⟨fun hr => ?_, fun hr => ?_⟩, fun e r ho he => ?_,
      fun k r ho => ⟨fun hk => ?_, fun hk => ?_⟩⟩ <;> rw [hx, ho]
    · exact State.answerOf_intake_malformed hr
    · exact State.answerOf_intake_tagReuse hr
    · exact State.answerOf_entry_cancelling he
    · exact State.answerOf_slot_expired hk
    · exact State.answerOf_slot_lost hk
  · obtain ⟨hc', hr⟩ := exec_realOffer h hreset hdown hleaves hc (State.isMatched_of_offered hx hc)
    exact ⟨hc', (State.offered?_congr_real hc hc' hr).trans hx⟩
  · have hhead : s.ret.answers.head? = some o := by rw [ha]; rfl
    rw [State.offered?_of_answer hc hhead] at hx
    refine (exec_answerOffer h hreset hdown hleaves hc hhead hx).imp_left fun ⟨hc', ha', hx'⟩ => ?_
    rw [State.offered?_of_answer hc' ha']
    exact ⟨hc', ha', hx'⟩
  · exact congrArg Host.Outcome.next ((State.whenRunning_of_running hs _).trans (State.realLeaves_eq hl hc hr))
  · refine ⟨s.answerLeaves, congrArg Host.Outcome.next (State.whenRunning_of_running hs _), ?_⟩
    rw [State.answerLeaves_eq hl hc ha]
    refine ⟨rfl, ?_⟩
    cases o with
    | intake => rw [State.ownerAnswered_intake howes]; rfl
    | entry e => rw [State.ownerAnswered_entry howes]; rfl
    | slot k =>
      rw [State.ownerAnswered_slot howes]
      refine ⟨rfl, ?_, fun k' hk' => ?_⟩
      · exact (s.slots_setSlotState k k _).trans (if_pos rfl)
      · exact (s.slots_setSlotState k k' _).trans (if_neg hk')

end Sys2Proof.Machine


namespace Sys2Proof.Machine

set_option Elab.async false

/-! ## Malformation (R6) -/

/-- No row of R6's table before row `n` holds of the request. -/
def RowsPass (req : FabricRequest) (n : Nat) : Prop := ∀ j : Nat, j < n → ¬ requestFails req j

theorem RowsPass.one (req : FabricRequest) : RowsPass req 1 := by
  intro j hj
  obtain rfl : j = 0 := by omega
  exact id

theorem RowsPass.succ {req : FabricRequest} {n : Nat} (h : RowsPass req n) (hn : ¬ requestFails req n) :
    RowsPass req (n + 1) := by
  intro j hj
  rcases Nat.lt_succ_iff_lt_or_eq.mp hj with hlt | rfl
  · exact h j hlt
  · exact hn

/-- The table has six rows, so where they all pass nothing fails. -/
theorem RowsPass.forall {req : FabricRequest} (h : RowsPass req 7) (j : Nat) : ¬ requestFails req j := by
  by_cases hj : j < 7
  · exact h j hj
  · obtain ⟨i, rfl⟩ : ∃ i, j = i + 7 := ⟨j - 7, by omega⟩
    exact id

/-- What an answer of the table says: row `i` is the first that holds, or none does (R6). -/
def ReasonCorrect (req : FabricRequest) : Option Nat → Prop
  | some i => requestFails req i ∧ RowsPass req i
  | none => ∀ j : Nat, ¬ requestFails req j

/-- At most one answer is correct. -/
theorem ReasonCorrect.unique {req : FabricRequest} {a b : Option Nat} (ha : ReasonCorrect req a)
    (hb : ReasonCorrect req b) : a = b := by
  match a, b with
  | none, none => rfl
  | none, some j => exact absurd hb.1 (ha j)
  | some i, none => exact absurd ha.1 (hb i)
  | some i, some j =>
    obtain ⟨hi, hi'⟩ := ha
    obtain ⟨hj, hj'⟩ := hb
    rcases Nat.lt_trichotomy i j with h | h | h
    · exact absurd hi (hj' i h)
    · rw [h]
    · exact absurd hj (hi' j h)

/-- Row 4 of a request of known kind (R6). -/
theorem requestFails_four {req : FabricRequest} {kind : Kind} (hk : kindOfCode req.kindCode = some kind) :
    requestFails req 4 ↔ kind = .atomic ∧ req.lengthField.toNat ≠ 1 := by
  simp [requestFails, hk]

/-- Row 6 of a request of known kind: the lines are not those its kind asks for (R6). -/
theorem requestFails_six {req : FabricRequest} {kind : Kind} (hk : kindOfCode req.kindCode = some kind) :
    requestFails req 6 ↔ req.data.length ≠ expectedLines kind req.lengthField.toNat := by
  cases kind <;> simp [requestFails, hk, expectedLines]

/-- The malformation reason goes through the rows of the table in order (R6). -/
theorem malformation_correct (req : FabricRequest) : ReasonCorrect req (malformation req) := by
  have pass1 := RowsPass.one req
  unfold malformation
  cases hk : kindOfCode req.kindCode with
  | none => exact ⟨hk, pass1⟩
  | some kind =>
    have pass2 := pass1.succ (by simp [requestFails, hk])
    dsimp only
    split
    next h2 => exact ⟨h2, pass2⟩
    next h2 =>
      have pass3 := pass2.succ h2
      split
      next h3 => exact ⟨h3, pass3⟩
      next h3 =>
        have pass4 := pass3.succ h3
        split
        next h4 => exact ⟨(requestFails_four hk).mpr h4, pass4⟩
        next h4 =>
          have pass5 := pass4.succ (mt (requestFails_four hk).mp h4)
          split
          next h5 => exact ⟨h5, pass5⟩
          next h5 =>
            have pass6 := pass5.succ h5
            split
            next h6 => exact ⟨(requestFails_six hk).mpr h6, pass6⟩
            next h6 => exact (pass6.succ (mt (requestFails_six hk).mp h6)).forall

/-- Settles O28: the answer given is correct, and only one answer is. -/
theorem malformationReason : Obligations.MalformationReason := by
  refine fun req i => ⟨⟨fun h => ?_, fun h => ?_⟩, ⟨fun h => ?_, fun h => ?_⟩⟩
  · have hc := malformation_correct req
    rw [h] at hc
    exact hc
  · exact (malformation_correct req).unique (b := some i) h
  · have hc := malformation_correct req
    rw [h] at hc
    exact hc
  · exact (malformation_correct req).unique (b := none) h

end Sys2Proof.Machine


namespace Sys2Proof.Machine

set_option Elab.async false

/-! ## Record layouts (R13, R193, R198) -/

/-- Bits of a number that a header spells (R198). -/
theorem toNat_extractLsb' {w : Nat} (x : BitVec w) (start len : Nat) :
    (x.extractLsb' start len).toNat = x.toNat / 2 ^ start % 2 ^ len := by
  rw [BitVec.extractLsb'_toNat, Nat.shiftRight_eq_div_pow]

theorem fabricRequestOf_append (source : BitVec 6) (tag : BitVec 8) (kind : BitVec 3) (length : BitVec 5)
    (address : BitVec 40) (data : List Line) :
    fabricRequestOf ((0 : BitVec 2) ++ source ++ tag ++ kind ++ length ++ address) data
      = ⟨source, tag, kind, address, length, data⟩ := by
  simp (disch := omega) only [fabricRequestOf, BitVec.extractLsb'_append_eq_of_le,
    BitVec.extractLsb'_append_eq_of_add_le, Nat.reduceSub, Nat.sub_self, BitVec.extractLsb'_eq_self]

theorem kindCode_lt (k : Kind) : kindCode k < 8 := by
  cases k <;> decide

theorem fabricStatusCode_lt (x : FabricStatus) : fabricStatusCode x < 8 := by
  cases x <;> decide

/-- The fields of a memory request's header do not run into each other (R198). -/
theorem memRequestHeader_toNat {r : MemRequest} (h : r.length < 32) :
    (memRequestHeader r).toNat = r.address.toNat + 2 ^ 40 * r.length + 2 ^ 45 * kindCode r.kind
      + 2 ^ 48 * r.tag.toNat + 2 ^ 58 * r.source.toNat := by
  have := r.address.isLt
  have := r.tag.isLt
  have := r.source.isLt
  have := kindCode_lt r.kind
  rw [memRequestHeader, BitVec.toNat_ofNat]
  omega

theorem memRequestHeader_fields {r : MemRequest} (h : r.length < 32) :
    (memRequestHeader r).extractLsb' 0 40 = r.address
      ∧ ((memRequestHeader r).extractLsb' 40 5).toNat = r.length
      ∧ ((memRequestHeader r).extractLsb' 45 3).toNat = kindCode r.kind
      ∧ (memRequestHeader r).extractLsb' 48 10 = r.tag
      ∧ (memRequestHeader r).extractLsb' 58 6 = r.source := by
  have := r.address.isLt
  have := r.tag.isLt
  have := r.source.isLt
  have := kindCode_lt r.kind
  simp only [← BitVec.toNat_inj, toNat_extractLsb', memRequestHeader_toNat h]
  refine ⟨?_, ?_, ?_, ?_, ?_⟩ <;> omega

theorem fabricResponseHeader_fields (r : FabricResponse) :
    (fabricResponseHeader r).extractLsb' 0 6 = r.source
      ∧ (fabricResponseHeader r).extractLsb' 6 8 = r.tag
      ∧ ((fabricResponseHeader r).extractLsb' 14 3).toNat = fabricStatusCode r.status := by
  have := r.tag.isLt
  have := r.source.isLt
  have := fabricStatusCode_lt r.status
  simp only [← BitVec.toNat_inj, toNat_extractLsb', fabricResponseHeader, BitVec.toNat_ofNat]
  refine ⟨?_, ?_, ?_⟩ <;> omega

theorem memResponseOf_append (status : BitVec 1) (tag : BitVec 10) (data : List Line) :
    memResponseOf ((0 : BitVec 5) ++ status ++ tag) data
      = ⟨tag, if status = 0 then .okay else .memfault, data⟩ := by
  simp (disch := omega) only [memResponseOf, BitVec.extractLsb'_append_eq_of_le,
    BitVec.extractLsb'_append_eq_of_add_le, Nat.sub_self, BitVec.extractLsb'_eq_self]

theorem creditMessageOf_append (hi : BitVec 2) (m : BitVec 6) :
    creditMessageOf (hi ++ m) = if hi.extractLsb' 0 1 = 0 then .creditGrant m else .creditReturn m := by
  simp (disch := omega) only [creditMessageOf, BitVec.extractLsb'_append_eq_of_le,
    BitVec.extractLsb'_append_eq_of_add_le, Nat.sub_self, BitVec.extractLsb'_eq_self]

/-- A downstream tag names the slot and the epoch it was made from (R13, R120). -/
theorem downstreamTag_names (k : SlotId) (e : BitVec 3) :
    tagSlot (downstreamTag k e) = k ∧ tagEpoch (downstreamTag k e) = e := by
  have := k.isLt
  have := e.isLt
  refine tag_of_toNat ?_
  rw [downstreamTag, BitVec.toNat_ofNat]
  omega

/-! ### Little-endian bytes (R191) -/

theorem leBytes_length (n v : Nat) : (leBytes n v).length = n := by
  simp [leBytes]

theorem leBytes_succ (n v : Nat) : leBytes (n + 1) v = BitVec.ofNat 8 v :: leBytes n (v / 256) := by
  simp only [leBytes, List.range_succ_eq_map, List.map_cons, List.map_map, pow_zero, Nat.div_one]
  congr 1
  refine List.map_congr_left fun i _ => ?_
  simp only [Function.comp_apply, pow_succ', Nat.div_div_eq_div_mul]

/-- The bytes of a number spell it again, as far as they reach. -/
theorem ofLeBytes_leBytes (n v : Nat) : ofLeBytes (leBytes n v) = v % 256 ^ n := by
  induction n generalizing v with
  | zero => simp [leBytes, ofLeBytes, Nat.mod_one]
  | succ n ih =>
    have hcons : ofLeBytes (leBytes (n + 1) v) = v % 256 + 256 * ofLeBytes (leBytes n (v / 256)) := by
      rw [leBytes_succ]
      rfl
    rw [hcons, ih, pow_succ', Nat.mod_mul]

/-- A value of `w` bits reads back from `n` bytes that hold it. -/
theorem ofNat_ofLeBytes_leBytes {w n : Nat} (h : w ≤ 8 * n) (x : BitVec w) :
    BitVec.ofNat w (ofLeBytes (leBytes n x.toNat)) = x := by
  have hlt : x.toNat < 256 ^ n := by
    have hpow : (256 : Nat) ^ n = 2 ^ (8 * n) := by rw [pow_mul]; norm_num
    rw [hpow]
    exact Nat.lt_of_lt_of_le x.isLt (Nat.pow_le_pow_right (by decide) h)
  rw [ofLeBytes_leBytes, Nat.mod_eq_of_lt hlt, BitVec.ofNat_toNat, BitVec.setWidth_eq]

theorem leBytes_one (v : Nat) : leBytes 1 v = [BitVec.ofNat 8 v] := by
  rw [leBytes_succ]
  rfl

/-- The four flags of a class-map entry stand in the bits of its first byte (R193). -/
theorem flags_getLsbD (a b c d : Bool) :
    (BitVec.ofNat 8 (bit a + 2 * bit b + 4 * bit c + 8 * bit d)).getLsbD 0 = a
      ∧ (BitVec.ofNat 8 (bit a + 2 * bit b + 4 * bit c + 8 * bit d)).getLsbD 1 = b
      ∧ (BitVec.ofNat 8 (bit a + 2 * bit b + 4 * bit c + 8 * bit d)).getLsbD 2 = c
      ∧ (BitVec.ofNat 8 (bit a + 2 * bit b + 4 * bit c + 8 * bit d)).getLsbD 3 = d := by
  revert a b c d
  decide

theorem setWidth_ofNat_toNat (x : BitVec 6) : (BitVec.ofNat 8 x.toNat).setWidth 6 = x := by
  have := x.isLt
  apply BitVec.eq_of_toNat_eq
  simp only [BitVec.toNat_setWidth, BitVec.toNat_ofNat]
  omega

theorem class_of_byte (c : ClassId) : Fin.ofNat 16 (BitVec.ofNat 8 c.val).toNat = c := by
  have := c.isLt
  apply Fin.ext
  simp only [Fin.ofNat, BitVec.toNat_ofNat]
  omega

theorem matchEntryOf_matchEntryBytes (m : MatchEntry) : matchEntryOf (matchEntryBytes m) = m := by
  obtain ⟨henabled, hreads, hwrites, hatomics⟩ := flags_getLsbD m.enabled m.reads m.writes m.atomics
  have hlow : ((matchEntryBytes m).drop 4).take 4 = leBytes 4 m.pageLow.toNat := by
    simp [matchEntryBytes, leBytes_one, leBytes_length]
  have hhigh : ((matchEntryBytes m).drop 8).take 4 = leBytes 4 m.pageHigh.toNat := by
    simp [matchEntryBytes, leBytes_one, leBytes_length]
  rw [matchEntryOf, hlow, hhigh, ofNat_ofLeBytes_leBytes (by decide), ofNat_ofLeBytes_leBytes (by decide)]
  simp only [byteAt, matchEntryBytes, leBytes_one, List.cons_append, List.nil_append, List.getD_cons_zero,
    List.getD_cons_succ, henabled, hreads, hwrites, hatomics, setWidth_ofNat_toNat, class_of_byte]

/-- Place `i` of a list of fields of two bytes each. -/
theorem take_drop_flatMap_leBytes (l : List (BitVec 16)) (i : Nat) (h : i < l.length) :
    ((l.flatMap (fun b => leBytes 2 b.toNat)).drop (2 * i)).take 2 = leBytes 2 l[i].toNat := by
  induction l generalizing i with
  | nil => cases h
  | cons b l ih =>
    cases i with
    | zero => simp [leBytes_length]
    | succ i =>
      have hdrop : 2 * (i + 1) = (leBytes 2 b.toNat).length + 2 * i := by rw [leBytes_length]; omega
      rw [List.flatMap_cons, hdrop, List.drop_length_add_append]
      exact ih i (by simpa using h)

theorem boundariesOf_flatMap (v : Vector (BitVec 16) 7) :
    boundariesOf (v.toList.flatMap (fun b => leBytes 2 b.toNat)) = v := by
  ext i hi : 1
  rw [boundariesOf, Vector.getElem_ofFn, take_drop_flatMap_leBytes _ i (by simpa using hi),
    ofNat_ofLeBytes_leBytes (by decide)]
  simp

/-- Settles O60, one record layout after another. -/
theorem recordsReadBack : Obligations.RecordsReadBack :=
  ⟨fabricRequestOf_append, fun _ => memRequestHeader_fields, fabricResponseHeader_fields,
    fun tag data => ⟨memResponseOf_append 0 tag data, memResponseOf_append 1 tag data⟩,
    fun m => ⟨creditMessageOf_append 0 m, creditMessageOf_append 1 m⟩, downstreamTag_names,
    matchEntryOf_matchEntryBytes, boundariesOf_flatMap⟩

end Sys2Proof.Machine


namespace Sys2Proof.Machine

set_option Elab.async false

/-! ## Reset values (R2, R64, R76, R155, R160, R185) -/

theorem reset_bank (i : MapIndex) :
    State.reset.map.bankA[i] = ⟨false, false, false, false, 0, 0, 0, 0, 0⟩
      ∧ State.reset.map.bankB[i] = ⟨false, false, false, false, 0, 0, 0, 0, 0⟩ := by
  simp [State.reset, ClassMap.reset, resetMatchEntry]

theorem reset_entry (e : EntryId) : State.reset.pool.entries[e] = .free := by
  simp [State.reset, HoldPool.empty]

theorem reset_queue (c : ClassId) : State.reset.pool.queues[c] = [] := by
  simp [State.reset, HoldPool.empty]

theorem reset_budget (c : ClassId) : State.reset.budget[c] = ClassBudget.reset 0 := by
  simp [State.reset]

theorem reset_pointer (l : Fin 4) : State.reset.arbiter.pointers[l] = 0 := by
  simp [State.reset]

theorem reset_slot (k : SlotId) : State.reset.transit.slots[k] = ⟨0, .free⟩ := by
  simp [State.reset]

theorem reset_live (c : ClassId) : State.reset.stats.live[c] = ClassStats.zero := by
  simp [State.reset]

theorem reset_bankClass (c : ClassId) : State.reset.stats.bank.classes[c] = ClassStats.zero := by
  simp [State.reset]

theorem ClassStats.get_zero (k : ClassCounter) : ClassStats.zero.get k = 0 := by
  cases k with
  | bin i => simp [ClassStats.get, ClassStats.zero]
  | _ => rfl

theorem GlobalStats.get_zero (k : GlobalCounter) : GlobalStats.zero.get k = 0 := by
  cases k <;> rfl

/-- Settles O3, one kind of state after another. -/
theorem resetValues : Obligations.ResetValues := by
  refine ⟨rfl, rfl, rfl, rfl, rfl, reset_bank, reset_entry, fun c => ?_, rfl, rfl, reset_pointer, rfl,
    reset_slot, rfl, fun c k => ?_, GlobalStats.get_zero, rfl, rfl, rfl, rfl, rfl, rfl, rfl, rfl, rfl, rfl, rfl,
    rfl, rfl, rfl, rfl, rfl, rfl, rfl, rfl⟩
  · rw [reset_budget]
    exact ⟨reset_queue c, rfl, rfl, rfl, rfl, rfl⟩
  · rw [reset_bankClass, reset_live]
    exact ⟨ClassStats.get_zero k, rfl, rfl, rfl, rfl⟩

/-! ## Events with nothing to act on -/

/-- A running effect, as the outcome of its command. -/
theorem next_whenRunning {s t : State} {f : State → State} (hs : s.phase = .running) (hf : f s = t) :
    (.next (s.whenRunning f) : Host.Outcome State Fault Refusal) = .next t :=
  congrArg Host.Outcome.next ((State.whenRunning_of_running hs f).trans hf)

/-- An offer waits outside while the intake holds a request or the fabric link is DOWN (R7). -/
theorem State.arrive_of_not_taken {s : State} (h : s.intake.register ≠ .empty ∨ s.ret.link = .down)
    (req : FabricRequest) : s.arrive req = s := by
  unfold State.arrive
  split
  · rename_i hr hl
    rw [hr, hl] at h
    simp at h
  · rfl

theorem State.retryPlacement_of_not_stalled {s : State}
    (h : ∀ q : StalledRequest, s.intake.register ≠ .stalled q) : s.retryPlacement = s := by
  unfold State.retryPlacement
  split
  · exact absurd ‹_› (h _)
  · rfl
  · rfl

theorem State.memoryLinkUp_of_not_down {s : State} (h : s.mem.link ≠ .down) : s.memoryLinkUp = s := by
  unfold State.memoryLinkUp
  split
  · exact absurd ‹_› h
  · rfl
  · rfl

theorem State.offsetWrite_of_not_awaiting {s : State} (h : s.port.bus ≠ .awaitOffset) (high low : Byte) :
    s.offsetWrite high low = s := by
  unfold State.offsetWrite
  split
  · exact absurd ‹_› h
  all_goals rfl

theorem State.windowWrite_of_not_writing {s : State} (h : s.port.bus ≠ .writing) (b : Byte) :
    s.windowWrite b = s := by
  unfold State.windowWrite
  split
  · exact absurd ‹_› h
  all_goals rfl

/-- Settles O24, event by event. -/
theorem nothingToActOn : Obligations.NothingToActOn := by
  intro s hs
  refine ⟨fun h => ?_, fun h => ?_, fun h => ?_, fun h => ⟨?_, fun m => ⟨?_, ?_⟩⟩, fun h req => ?_,
    fun h => ?_, fun h => ?_, fun h => ?_, fun high low h => ?_, fun b h => ?_, fun h => ?_, fun straps => ?_⟩
  · exact next_whenRunning hs (by rw [State.fabricLinkUp, h])
  · exact next_whenRunning hs (by rw [State.fabricLinkDown, h])
  · exact next_whenRunning hs (State.memoryLinkUp_of_not_down h)
  · exact next_whenRunning hs (by rw [State.memoryLinkDown, h])
  · exact next_whenRunning hs (by rw [State.creditGrant, h])
  · exact next_whenRunning hs (by rw [State.creditReturn, h])
  · exact next_whenRunning hs (State.arrive_of_not_taken h req)
  · exact next_whenRunning hs (State.retryPlacement_of_not_stalled h)
  · exact next_whenRunning hs (State.realLeaves_of_not_offering h)
  · exact next_whenRunning hs (State.answerLeaves_of_not_offering h)
  · exact next_whenRunning hs (State.offsetWrite_of_not_awaiting h high low)
  · exact next_whenRunning hs (State.windowWrite_of_not_writing h b)
  · refine next_whenRunning hs ?_
    cases hb : s.port.bus with
    | reading => exact absurd hb h
    | _ => rfl
  · simp only [exec, execResetEnd, hs]

/-! ## Sends, memory's responses, and the completion of a quiesce -/

theorem State.takeResponse_of_empty {s : State} (hr : s.ret.register = .empty) (hl : s.mem.link = .up)
    (resp : MemResponse) : s.takeResponse resp = { s with ret.register := .unmatched resp } := by
  rw [State.takeResponse, hr, hl]

theorem State.takeResponse_of_not_taken {s : State} (h : s.ret.register ≠ .empty ∨ s.mem.link ≠ .up)
    (resp : MemResponse) : s.takeResponse resp = s := by
  unfold State.takeResponse
  split
  · rename_i hr hl
    simp [hr, hl] at h
  · rfl

/-- Settles O38, by what each of the three events makes of the state. -/
theorem sendTakeAndComplete : Obligations.SendTakeAndComplete := by
  intro s resp hs
  obtain ⟨hcompletes, hwaits⟩ := s.completeQuiesce_eq
  exact ⟨next_whenRunning hs rfl, fun ⟨hr, hl⟩ => next_whenRunning hs (State.takeResponse_of_empty hr hl resp),
    fun h => next_whenRunning hs (State.takeResponse_of_not_taken h resp),
    fun h => next_whenRunning hs (hcompletes h), fun h => next_whenRunning hs (hwaits h)⟩

end Sys2Proof.Machine


namespace Sys2Proof.Machine

set_option Elab.async false

/-! ## The match (R126) -/

/-- MATCH of an UNMATCHED response is the match of its tag (R126). -/
theorem exec_matchResponse {s : State} {resp : MemResponse} (hs : s.phase = .running)
    (hr : s.ret.register = .unmatched resp) : exec .matchResponse s = .next (s.matchWith resp) :=
  next_whenRunning hs (by rw [hr])

/-- A response whose tag names a slot in flight with its epoch completes the request (R126, R127). -/
theorem State.matchWith_of_inFlight {s : State} {resp : MemResponse} {k : SlotId} {r : SlotRecord}
    {d : Option Time} {overdue : Bool} (htag : resp.tag.toNat = 8 * k.val + s.transit.slots[k].epoch.toNat)
    (hk : s.transit.slots[k].state = .inFlight r d overdue) :
    s.matchWith resp = s.complete k r overdue resp := by
  obtain ⟨rfl, hepoch⟩ := tag_of_toNat htag
  rw [State.matchWith]
  rw [if_pos hepoch.symm, hk]

/-- A response whose tag names a slot that owes its answer, with its epoch, supersedes it (R126, R128). -/
theorem State.matchWith_of_owing {s : State} {resp : MemResponse} {k : SlotId} {r : SlotRecord}
    (htag : resp.tag.toNat = 8 * k.val + s.transit.slots[k].epoch.toNat)
    (hk : s.transit.slots[k].state = .expired r true ∨ s.transit.slots[k].state = .lost r) :
    s.matchWith resp = s.supersede k r resp := by
  obtain ⟨rfl, hepoch⟩ := tag_of_toNat htag
  rw [State.matchWith]
  rcases hk with hk | hk <;> rw [if_pos hepoch.symm, hk]

/-- The status and data a matched response keeps (R14, R143). -/
theorem matchedResponse_judged (r : SlotRecord) (resp : MemResponse) (origin : Origin) :
    if resp.status = .okay ∧ resp.data.length = responseLines r then
      (matchedResponse r resp origin).status = .okay ∧ (matchedResponse r resp origin).data = resp.data
    else (matchedResponse r resp origin).status = .memfault ∧ (matchedResponse r resp origin).data = [] := by
  rw [matchedResponse, judgeResponse_eq]
  split <;> exact ⟨rfl, rfl⟩

/-! ### A supersede -/

/-- What an incident makes of the queue is what it makes of a state with the same queue and time (R171). -/
theorem State.raise_eq_of_same_queue {s t : State} (hi : s.incidents = t.incidents) (ht : s.time = t.time)
    (body : IncidentBody) : s.raise body = { s with incidents := (t.raise body).incidents } := by
  rw [← State.raise_incidents_congr hi ht]
  exact s.raise_frame body

/-- What a counting event makes of the counters is what it makes of a state with the same counters (R157). -/
theorem State.countClass_eq_of_same_counters {s t : State} (hlive : s.stats.live = t.stats.live)
    (halert : s.alerts.saturation = t.alerts.saturation) (c : ClassId) (k : ClassCounter) (n : Nat) :
    s.countClass c k n = { s with
      stats.live := (t.countClass c k n).stats.live
      alerts.saturation := (t.countClass c k n).alerts.saturation } := by
  rw [State.countClass_stats_live, State.countClass_alerts_saturation, ← hlive, ← halert]
  rfl

/-- Everything a supersede does but the channel's choice (R128, R149). -/
def State.superseded (s : State) (k : SlotId) (r : SlotRecord) (resp : MemResponse) : State :=
  { (s.withdrawAnswer k).deliver k r resp .supersede with
    stats.live := (s.countClass r.cls .lateDelivered 1).stats.live
    alerts.saturation := (s.countClass r.cls .lateDelivered 1).alerts.saturation
    incidents := (s.raise (slotIncident .lateResponse k r 0)).incidents }

theorem State.supersede_eq (s : State) (k : SlotId) (r : SlotRecord) (resp : MemResponse) :
    s.supersede k r resp = { s.superseded k r resp with
      ret.channel := (s.superseded k r resp).channelAfter (s.withdrawAnswer k).ret.channel } := by
  rw [State.supersede]
  dsimp only
  rw [State.raise_eq_of_same_queue (t := s) (by simp) (by simp),
    State.countClass_eq_of_same_counters (t := s) (by simp) (by simp)]
  exact (s.superseded k r resp).chooseOffer_channelAfter

/-- Everything a supersede changes or counts: the slot is FREE, its reference and its offer are withdrawn, the
register holds the response (R128, R149). -/
theorem State.supersede_frame (s : State) (k : SlotId) (r : SlotRecord) (resp : MemResponse) :
    s.supersede k r resp = { s with
      transit.slots := (s.setSlotState k .free).transit.slots
      ret.register := .matched (matchedResponse r resp .supersede)
      ret.answers := s.ret.answers.filter (fun o => decide (o ≠ .slot k))
      ret.channel := (s.superseded k r resp).channelAfter (s.withdrawAnswer k).ret.channel
      stats.live := (s.countClass r.cls .lateDelivered 1).stats.live
      alerts.saturation := (s.countClass r.cls .lateDelivered 1).alerts.saturation
      incidents := (s.raise (slotIncident .lateResponse k r 0)).incidents } := by
  rw [State.supersede_eq]
  generalize (s.superseded k r resp).channelAfter _ = channel
  simp only [State.superseded, State.deliver, State.withdrawAnswer, State.setSlotState]

/-- The channel makes its choice with the slot's own offer withdrawn (R149, R150). -/
theorem State.supersede_channel (s : State) (k : SlotId) (r : SlotRecord) (resp : MemResponse) :
    (s.supersede k r resp).ret.channel
      = (s.supersede k r resp).channelAfter (s.withdrawAnswer k).ret.channel := by
  rw [State.supersede_eq]
  exact State.channelAfter_congr rfl rfl rfl rfl _

/-- Settles O41, reading each clause off what a supersede makes of the state. -/
theorem matchSupersedes : Obligations.MatchSupersedes := by
  intro s resp k r hs hr htag hk
  have hframe := s.supersede_frame k r resp
  have hchannel := s.supersede_channel k r resp
  have hslots : (s.supersede k r resp).transit.slots = (s.setSlotState k .free).transit.slots := by
    rw [hframe]
  have hregister : (s.supersede k r resp).ret.register
      = .matched (matchedResponse r resp .supersede) := by rw [hframe]
  refine ⟨s.supersede k r resp, matchedResponse r resp .supersede,
    by rw [exec_matchResponse hs hr, State.matchWith_of_owing htag hk], hregister, rfl, rfl, rfl, rfl, rfl,
    matchedResponse_judged r resp .supersede, ?_, fun k' hk' => ?_, by rw [hframe], fun hl hc ha => ?_, ?_⟩
  · rw [hslots, State.slots_setSlotState, if_pos rfl]
  · rw [hslots, State.slots_setSlotState, if_neg hk']
  · have hbefore : (s.withdrawAnswer k).ret.channel = .idle := if_pos ⟨hc, ha⟩
    have hlink : (s.supersede k r resp).ret.link = .up := by rw [hframe]; exact hl
    have hturn : (s.supersede k r resp).ret.turn = s.ret.turn := by rw [hframe]
    rw [hchannel, hbefore, State.channelAfter, hlink, hregister, hturn]
    rfl
  · have hafter := hchannel
    rw [State.withdrawAnswer] at hafter
    dsimp only at hafter
    rw [← hafter, hframe]
    rfl

/-! ### A completion -/

/-- Offering a memory time changes no counter (R158). -/
theorem ClassStats.get_maxMemory (r : ClassStats) (t : Time) (k : ClassCounter) :
    ({ r with maxMemory := t } : ClassStats).get k = r.get k := by
  cases k <;> rfl

/-- The live record a memory time was offered to, and the others. -/
theorem State.live_offerMemory (s : State) (c i : ClassId) (t : Time) :
    (s.offerMemory c t).stats.live[i] = if i = c then
      { s.stats.live[c] with maxMemory := maxTime s.stats.live[c].maxMemory t } else s.stats.live[i] := by
  rw [State.offerMemory_stats_live, live_set]

theorem State.get_offerMemory (s : State) (c i : ClassId) (t : Time) (k : ClassCounter) :
    (s.offerMemory c t).stats.live[i].get k = s.stats.live[i].get k := by
  rw [State.live_offerMemory]
  split
  · rename_i h
    rw [ClassStats.get_maxMemory, h]
  · rfl

theorem State.saturated_offerMemory (s : State) (c i : ClassId) (t : Time) :
    (s.offerMemory c t).stats.live[i].saturated = s.stats.live[i].saturated := by
  rw [State.live_offerMemory]
  split
  · rename_i h
    rw [h]
  · rfl

theorem State.CountsKept.offerMemory (s : State) (c : ClassId) (t : Time)
    (except : ClassId → ClassCounter → Prop) : s.CountsKept (s.offerMemory c t) except where
  kept i k _ := s.get_offerMemory c i t k
  grows i k := by rw [State.get_offerMemory]
  saturated i h := by rw [State.saturated_offerMemory]; exact h
  newlySaturated i h := .inl (by rwa [State.saturated_offerMemory] at h)
  alert h := h
  newAlert h := .inl h

/-- The counter a completion raises: in time, or overdue (R127). -/
def completionCounter (overdue : Bool) : ClassCounter := if overdue then .overdueCompleted else .completedInTime

/-- Everything a completion does but what the quiesce and the channel make of it (R127). -/
def State.completed (s : State) (k : SlotId) (r : SlotRecord) (overdue : Bool) (resp : MemResponse) : State :=
  ((s.deliver k r resp .completion).offerMemory r.cls (s.time - r.forwardTime)).countClass r.cls
    (completionCounter overdue) 1

/-- What a quiesce that completes, or does not, leaves of the state (R113). -/
theorem State.completeQuiesce_frame (s : State) :
    s.completeQuiesce = { s with
      arbiter.quiesce := s.quiesceAfter s
      port.status.state := s.completeQuiesce.port.status.state
      alerts.quiesce := s.completeQuiesce.alerts.quiesce } := by
  obtain ⟨hcompletes, hwaits⟩ := s.completeQuiesce_eq
  by_cases h : s.arbiter.quiesce = .quiescing ∧ s.countSlots SlotState.isInFlight = 0
  · rw [hcompletes h, State.quiesceAfter, if_pos h]
  · rw [hwaits (not_and_or.mp h), State.quiesceAfter, if_neg h]

theorem State.complete_eq (s : State) (k : SlotId) (r : SlotRecord) (overdue : Bool) (resp : MemResponse) :
    s.complete k r overdue resp = { (s.completed k r overdue resp).completeQuiesce with
      ret.channel := (s.completed k r overdue resp).completeQuiesce.channelAfter s.ret.channel } := by
  have h := (s.completed k r overdue resp).completeQuiesce.chooseOffer_channelAfter
  have hchannel : (s.completed k r overdue resp).completeQuiesce.ret.channel = s.ret.channel := by
    rw [State.completeQuiesce_ret]
    rfl
  rw [hchannel] at h
  exact h

/-- The completion counters after a completion (R127, R157). -/
theorem State.get_completed (s : State) (k : SlotId) (r : SlotRecord) (overdue : Bool) (resp : MemResponse)
    (counter : ClassCounter) :
    (s.completed k r overdue resp).stats.live[r.cls].get counter
      = satAdd (s.stats.live[r.cls].get counter) (if counter = completionCounter overdue then 1 else 0) := by
  rw [State.completed, State.get_countClass, State.get_offerMemory]
  by_cases h : counter = completionCounter overdue
  · rw [if_pos ⟨rfl, h⟩, if_pos h]; rfl
  · rw [if_neg (fun h' => h h'.2), if_neg h, satAdd_zero]; rfl

/-- The class's memory time maximum after a completion (R158). -/
theorem State.maxMemory_completed (s : State) (k : SlotId) (r : SlotRecord) (overdue : Bool)
    (resp : MemResponse) :
    (s.completed k r overdue resp).stats.live[r.cls].maxMemory
      = maxTime s.stats.live[r.cls].maxMemory (s.time - r.forwardTime) := by
  rw [State.completed, State.maxMemory_countClass, State.live_offerMemory, if_pos rfl]
  rfl

theorem State.maxima_completed (s : State) (k : SlotId) (r : SlotRecord) (overdue : Bool)
    (resp : MemResponse) (i : ClassId) :
    (s.completed k r overdue resp).stats.live[i].maxHold = s.stats.live[i].maxHold
      ∧ (i ≠ r.cls → (s.completed k r overdue resp).stats.live[i].maxMemory = s.stats.live[i].maxMemory) := by
  rw [State.completed, State.maxHold_countClass, State.maxMemory_countClass, State.live_offerMemory]
  refine ⟨?_, fun hi => ?_⟩
  · split
    · rename_i h
      rw [h]; rfl
    · rfl
  · rw [if_neg hi]; rfl

theorem State.CountsKept.completed (s : State) (k : SlotId) (r : SlotRecord) (overdue : Bool)
    (resp : MemResponse) : s.CountsKept (s.completed k r overdue resp)
      (fun i k => i = r.cls ∧ (k = .completedInTime ∨ k = .overdueCompleted)) := by
  have hoffer : s.CountsKept ((s.deliver k r resp .completion).offerMemory r.cls (s.time - r.forwardTime))
      (fun i k => i = r.cls ∧ (k = .completedInTime ∨ k = .overdueCompleted)) :=
    (State.CountsKept.offerMemory (s.deliver k r resp .completion) _ _ _).congr rfl rfl rfl rfl
  refine hoffer.trans ((State.CountsKept.countClass _ r.cls (completionCounter overdue) 1).mono ?_)
  rintro i k ⟨hi, rfl⟩
  cases overdue
  · exact ⟨hi, .inl rfl⟩
  · exact ⟨hi, .inr rfl⟩

theorem State.saturation_completed (s : State) (k : SlotId) (r : SlotRecord) (overdue : Bool)
    (resp : MemResponse) : (s.completed k r overdue resp).alerts.saturation
      = (s.countClass r.cls (completionCounter overdue) 1).alerts.saturation := by
  rw [State.completed, State.countClass_alerts_saturation, State.get_offerMemory]
  rfl

/-- What a completion leaves, before the quiesce and the channel (R127). -/
theorem State.completed_frame (s : State) (k : SlotId) (r : SlotRecord) (overdue : Bool)
    (resp : MemResponse) : s.completed k r overdue resp = { s with
      transit.slots := (s.setSlotState k .free).transit.slots
      ret.register := .matched (matchedResponse r resp .completion)
      stats.live := (s.completed k r overdue resp).stats.live
      alerts.saturation := (s.completed k r overdue resp).alerts.saturation } := rfl

/-- What a completion leaves, the quiesce and the channel with it (R113, R127, R150). -/
theorem State.complete_frame (s : State) (k : SlotId) (r : SlotRecord) (overdue : Bool)
    (resp : MemResponse) : s.complete k r overdue resp = { s with
      transit.slots := (s.setSlotState k .free).transit.slots
      ret.register := .matched (matchedResponse r resp .completion)
      ret.channel := (s.completed k r overdue resp).completeQuiesce.channelAfter s.ret.channel
      stats.live := (s.completed k r overdue resp).stats.live
      alerts.saturation := (s.completed k r overdue resp).alerts.saturation
      arbiter.quiesce := (s.completed k r overdue resp).completeQuiesce.arbiter.quiesce
      port.status.state := (s.completed k r overdue resp).completeQuiesce.port.status.state
      alerts.quiesce := (s.completed k r overdue resp).completeQuiesce.alerts.quiesce } := by
  have hframe := s.completed_frame k r overdue resp
  rw [State.complete_eq]
  generalize s.completed k r overdue resp = u at hframe ⊢
  obtain ⟨hcompletes, hwaits⟩ := u.completeQuiesce_eq
  have hquiesce : u.completeQuiesce = { s with
      transit.slots := (s.setSlotState k .free).transit.slots
      ret.register := .matched (matchedResponse r resp .completion)
      stats.live := u.stats.live
      alerts.saturation := u.alerts.saturation
      arbiter.quiesce := u.completeQuiesce.arbiter.quiesce
      port.status.state := u.completeQuiesce.port.status.state
      alerts.quiesce := u.completeQuiesce.alerts.quiesce } := by
    by_cases h : u.arbiter.quiesce = .quiescing ∧ u.countSlots SlotState.isInFlight = 0
    · rw [hcompletes h, hframe]
    · rw [hwaits (not_and_or.mp h), hframe]
  rw [hquiesce]

theorem State.complete_channel (s : State) (k : SlotId) (r : SlotRecord) (overdue : Bool)
    (resp : MemResponse) : (s.complete k r overdue resp).ret.channel
      = (s.complete k r overdue resp).channelAfter s.ret.channel := by
  rw [State.complete_eq]
  exact State.channelAfter_congr rfl rfl rfl rfl _

theorem State.complete_slots (s : State) (k : SlotId) (r : SlotRecord) (overdue : Bool)
    (resp : MemResponse) :
    (s.complete k r overdue resp).transit.slots = (s.setSlotState k .free).transit.slots := by
  rw [State.complete_frame]

/-- The quiesce state after a completion: the slot may have been the last one in flight (R113). -/
theorem State.complete_quiesce (s : State) (k : SlotId) (r : SlotRecord) (overdue : Bool)
    (resp : MemResponse) : (s.complete k r overdue resp).arbiter.quiesce
      = s.quiesceAfter (s.complete k r overdue resp) := by
  have hslots := s.complete_slots k r overdue resp
  rw [State.quiesceAfter, State.countSlots, hslots, State.complete_eq, State.completeQuiesce_frame]
  rfl

theorem State.complete_without_quiesce {s : State} (h : s.arbiter.quiesce ≠ .quiescing) (k : SlotId)
    (r : SlotRecord) (overdue : Bool) (resp : MemResponse) :
    (s.complete k r overdue resp).port = s.port
      ∧ (s.complete k r overdue resp).alerts.quiesce = s.alerts.quiesce := by
  rw [State.complete_eq, (s.completed k r overdue resp).completeQuiesce_eq.2 (.inl h)]
  exact ⟨rfl, rfl⟩

/-- Settles O40, reading each clause off what a completion makes of the state. -/
theorem matchCompletes : Obligations.MatchCompletes := by
  intro s resp k r d overdue hs hr htag hk
  have hframe := s.complete_frame k r overdue resp
  have hslots := s.complete_slots k r overdue resp
  have hlive : (s.complete k r overdue resp).stats.live = (s.completed k r overdue resp).stats.live := by
    rw [hframe]
  have hsaturation : (s.complete k r overdue resp).alerts.saturation
      = (s.completed k r overdue resp).alerts.saturation := by rw [hframe]
  have hget := s.get_completed k r overdue resp
  refine ⟨s.complete k r overdue resp, matchedResponse r resp .completion,
    by rw [exec_matchResponse hs hr, State.matchWith_of_inFlight htag hk], by rw [hframe], rfl, rfl, rfl, rfl, rfl,
    matchedResponse_judged r resp .completion, ?_, fun k' hk' => ?_, ?_, ?_, ?_,
    (State.CountsKept.completed s k r overdue resp).congr rfl rfl hlive hsaturation, fun i => ?_,
    s.complete_quiesce k r overdue resp, fun hq => State.complete_without_quiesce hq k r overdue resp, ?_⟩
  · rw [hslots, State.slots_setSlotState, if_pos rfl]
  · rw [hslots, State.slots_setSlotState, if_neg hk']
  · rw [hlive, State.maxMemory_completed, maxTime_toNat]
  · rw [hlive]
    refine (hget .completedInTime).trans ?_
    cases overdue <;> rfl
  · rw [hlive]
    refine (hget .overdueCompleted).trans ?_
    cases overdue <;> rfl
  · rw [hlive]
    exact s.maxima_completed k r overdue resp i
  · rw [← s.complete_channel k r overdue resp]
    have hcounted := s.saturation_completed k r overdue resp
    rw [completionCounter] at hcounted
    rw [← hcounted, ← hsaturation]
    rw [hframe]

end Sys2Proof.Machine


namespace Sys2Proof.Machine

set_option Elab.async false

/-! ## The requests that wait: class queues and the records of the QUEUED entries -/

/-- What the placement order is about: the class queues, and the record of each QUEUED entry with its
waited-for-budget flag left out. -/
@[ext] structure Waiting where
  queues : ClassId → List EntryId
  records : EntryId → Option HoldRecord

/-- The record of an entry that waits to be forwarded, without its flag. -/
def HoldEntry.waiting? : HoldEntry → Option HoldRecord
  | .queued r => some { r with waitedForBudget := false }
  | .free | .cancelling _ => none

theorem HoldEntry.waiting?_eq_some {x : HoldEntry} {r : HoldRecord} :
    x.waiting? = some r ↔ ∃ q : HoldRecord, x = .queued q ∧ { q with waitedForBudget := false } = r := by
  cases x <;> simp [HoldEntry.waiting?]

theorem HoldEntry.waiting?_isSome (x : HoldEntry) : x.waiting?.isSome = x.isQueued := by
  cases x <;> rfl

theorem HoldEntry.waiting?_unflagged (x : HoldEntry) : x.unflagged.waiting? = x.waiting? := by
  cases x <;> rfl

/-- The requests that wait in a state. -/
def State.waiting (s : State) : Waiting :=
  { queues := fun c => s.pool.queues[c], records := fun e => s.pool.entries[e].waiting? }

/-- The placement order of R22, R24, R42 and R45, of the requests that wait. -/
structure Waiting.InOrder (w : Waiting) (order : List EntryId) : Prop where
  nodup : order.Nodup
  mem : ∀ e : EntryId, e ∈ order ↔ ∃ r : HoldRecord, w.records e = some r
  queue : ∀ c : ClassId, w.queues c
    = order.filter (fun e => (w.records e).any (fun r => decide (r.cls = c)))
  waits : ∀ (b : EntryId) (rb : HoldRecord), w.records b = some rb → ∀ a : EntryId,
    a ∈ rb.waitList ↔ List.Sublist [a, b] order
      ∧ ∃ ra : HoldRecord, w.records a = some ra ∧ rb.overlaps ra = true

theorem State.records_eq_some {s : State} {e : EntryId} {r : HoldRecord} :
    s.waiting.records e = some r
      ↔ ∃ q : HoldRecord, s.pool.entries[e] = .queued q ∧ { q with waitedForBudget := false } = r :=
  HoldEntry.waiting?_eq_some

theorem State.records_of_queued {s : State} {e : EntryId} {r : HoldRecord}
    (h : s.pool.entries[e] = .queued r) :
    s.waiting.records e = some { r with waitedForBudget := false } :=
  State.records_eq_some.mpr ⟨r, h, rfl⟩

theorem State.isQueued_iff_records {s : State} {e : EntryId} :
    s.pool.entries[e].isQueued = true ↔ ∃ r : HoldRecord, s.waiting.records e = some r := by
  rw [← HoldEntry.waiting?_isSome, Option.isSome_iff_exists]
  rfl

/-- A QUEUED entry's class is its record's. -/
theorem State.ofClass_of_isQueued {s : State} {e : EntryId} (h : s.pool.entries[e].isQueued = true)
    (c : ClassId) : s.pool.entries[e].ofClass c
      = (s.waiting.records e).any (fun r => decide (r.cls = c)) := by
  simp only [State.waiting]
  cases hx : s.pool.entries[e] with
  | queued r => rfl
  | free => rw [hx] at h; cases h
  | cancelling r => rw [hx] at h; cases h

/-- Some QUEUED entry's record overlaps `r`: its flag has no part in it. -/
theorem State.exists_queued_overlapping {s : State} {a : EntryId} {r : HoldRecord} :
    (∃ ra : HoldRecord, s.pool.entries[a] = .queued ra ∧ r.overlaps ra = true)
      ↔ ∃ ra : HoldRecord, s.waiting.records a = some ra ∧ r.overlaps ra = true := by
  constructor
  · rintro ⟨ra, ha, ho⟩
    exact ⟨_, State.records_of_queued ha, ho⟩
  · rintro ⟨_, ha, ho⟩
    obtain ⟨q, hq, rfl⟩ := State.records_eq_some.mp ha
    exact ⟨q, hq, ho⟩

/-- A state's placement order is its waiting requests'. -/
theorem State.placedInOrder_iff {s : State} {order : List EntryId} :
    s.PlacedInOrder order ↔ s.waiting.InOrder order := by
  have hqueue (hmem : ∀ e : EntryId, e ∈ order ↔ s.pool.entries[e].isQueued = true) (c : ClassId) :
      order.filter (fun e => s.pool.entries[e].ofClass c)
        = order.filter (fun e => (s.waiting.records e).any (fun r => decide (r.cls = c))) :=
    List.filter_congr fun e he => State.ofClass_of_isQueued ((hmem e).mp he) c
  constructor
  · rintro ⟨hnodup, hmem, hqueues, hwaits⟩
    refine ⟨hnodup, fun e => (hmem e).trans State.isQueued_iff_records,
      fun c => (hqueues c).trans (hqueue hmem c), fun b rb hb a => ?_⟩
    obtain ⟨q, hq, rfl⟩ := State.records_eq_some.mp hb
    rw [← State.exists_queued_overlapping]
    exact hwaits b q hq a
  · rintro ⟨hnodup, hmem, hqueues, hwaits⟩
    have hmem' (e : EntryId) := (hmem e).trans State.isQueued_iff_records.symm
    refine ⟨hnodup, hmem', fun c => (hqueues c).trans (hqueue hmem' c).symm, fun b rb hb a => ?_⟩
    rw [State.exists_queued_overlapping]
    exact hwaits b _ (State.records_of_queued hb) a

/-! ### Requests that leave -/

/-- The waiting requests without those that leave: they leave their queues and every wait list (R33, R34). -/
def Waiting.without (w : Waiting) (leaves : EntryId → Bool) : Waiting :=
  { queues := fun c => (w.queues c).filter (fun e => !leaves e)
    records := fun e => if leaves e then none else (w.records e).map (fun r =>
      { r with waitList := r.waitList.filter (fun a => !leaves a) }) }

theorem Waiting.records_without_eq_some {w : Waiting} {leaves : EntryId → Bool} {e : EntryId}
    {r : HoldRecord} : (w.without leaves).records e = some r
      ↔ leaves e = false ∧ ∃ q : HoldRecord, w.records e = some q
          ∧ { q with waitList := q.waitList.filter (fun a => !leaves a) } = r := by
  simp only [Waiting.without]
  cases leaves e <;> simp

/-- Two entries stand in a thinned list in their order exactly when they did before and both were kept. -/
theorem pair_sublist_filter {α : Type} {a b : α} {l : List α} {p : α → Bool} :
    List.Sublist [a, b] (l.filter p) ↔ List.Sublist [a, b] l ∧ p a = true ∧ p b = true := by
  constructor
  · intro h
    have ha : a ∈ l.filter p := h.subset (by simp)
    have hb : b ∈ l.filter p := h.subset (by simp)
    exact ⟨h.trans List.filter_sublist, List.of_mem_filter ha, List.of_mem_filter hb⟩
  · rintro ⟨h, ha, hb⟩
    simpa [ha, hb] using h.filter p

/-- Where requests leave, those that stay keep their places. -/
theorem Waiting.InOrder.without {w : Waiting} {order : List EntryId} (h : w.InOrder order)
    (leaves : EntryId → Bool) :
    (w.without leaves).InOrder (order.filter (fun e => !leaves e)) where
  nodup := h.nodup.filter _
  mem e := by
    simp only [List.mem_filter, h.mem, Waiting.records_without_eq_some]
    simp [and_comm]
  queue c := by
    simp only [Waiting.without, h.queue c, List.filter_filter]
    refine List.filter_congr fun e _ => ?_
    cases leaves e <;> cases w.records e <;> simp
  waits b rb hb a := by
    obtain ⟨hkept, q, hq, rfl⟩ := Waiting.records_without_eq_some.mp hb
    have hmember := h.waits b q hq a
    simp only [List.mem_filter, hmember, pair_sublist_filter, Waiting.records_without_eq_some]
    constructor
    · rintro ⟨⟨hsub, ra, hra, ho⟩, hla⟩
      exact ⟨⟨hsub, hla, by simp [hkept]⟩, _, ⟨by simpa using hla, ra, hra, rfl⟩, ho⟩
    · rintro ⟨⟨hsub, hla, -⟩, _, ⟨-, ra, hra, rfl⟩, ho⟩
      exact ⟨⟨hsub, ra, hra, ho⟩, hla⟩

/-- The queue of class `c` and no other holds the waiting entries of class `c`. -/
theorem Waiting.InOrder.mem_queue {w : Waiting} {order : List EntryId} (h : w.InOrder order)
    {c : ClassId} {e : EntryId} :
    e ∈ w.queues c ↔ ∃ r : HoldRecord, w.records e = some r ∧ r.cls = c := by
  rw [h.queue, List.mem_filter, h.mem, Option.any_eq_true]
  simp only [decide_eq_true_eq]
  exact ⟨And.right, fun hr => ⟨hr.imp fun _ => And.left, hr⟩⟩

/-- An entry of one class's queue stands in no other class's. -/
theorem Waiting.InOrder.queues_disjoint {w : Waiting} {order : List EntryId} (h : w.InOrder order)
    {c d : ClassId} {e : EntryId} (hc : e ∈ w.queues c) (hd : e ∈ w.queues d) : c = d := by
  obtain ⟨r, hr, rfl⟩ := h.mem_queue.mp hc
  obtain ⟨q, hq, rfl⟩ := h.mem_queue.mp hd
  rw [hr] at hq
  cases hq
  rfl

theorem Waiting.InOrder.queue_nodup {w : Waiting} {order : List EntryId} (h : w.InOrder order)
    (c : ClassId) : (w.queues c).Nodup := by
  rw [h.queue]
  exact h.nodup.filter _

/-! ### A request that is placed -/

/-- The waiting requests with one more, of record `r` in entry `e`, at the end of its class's queue (R20). -/
def Waiting.add (w : Waiting) (e : EntryId) (r : HoldRecord) : Waiting :=
  { queues := fun c => if c = r.cls then w.queues c ++ [e] else w.queues c
    records := fun i => if i = e then some r else w.records i }

theorem Waiting.records_add_same (w : Waiting) (e : EntryId) (r : HoldRecord) :
    (w.add e r).records e = some r := if_pos rfl

theorem Waiting.records_add_other (w : Waiting) {e i : EntryId} (r : HoldRecord) (h : i ≠ e) :
    (w.add e r).records i = w.records i := if_neg h

/-- The last of a list stands behind exactly what stood before it. -/
theorem pair_sublist_append_self {α : Type} {a e : α} {l : List α} :
    List.Sublist [a, e] (l ++ [e]) ↔ a ∈ l := by
  rw [← List.singleton_sublist]
  exact List.append_sublist_append_right [e] (l₁ := [a])

/-- One more at the end makes no pair that ends in another. -/
theorem pair_sublist_append_of_ne {α : Type} {a b e : α} {l : List α} (hb : b ≠ e) :
    List.Sublist [a, b] (l ++ [e]) ↔ List.Sublist [a, b] l := by
  rw [← List.reverse_sublist, ← List.reverse_sublist (l₂ := l)]
  simp [List.cons_sublist_cons', hb]

/-- A request placed in an entry that did not wait stands behind all that wait, and waits on those that it
overlaps (R20, R42). -/
theorem Waiting.InOrder.add {w : Waiting} {order : List EntryId} (h : w.InOrder order) {e : EntryId}
    {r : HoldRecord} (he : w.records e = none)
    (hwait : ∀ a : EntryId, a ∈ r.waitList ↔
      ∃ ra : HoldRecord, w.records a = some ra ∧ r.overlaps ra = true) :
    (w.add e r).InOrder (order ++ [e]) := by
  have hnew : e ∉ order := by simp [h.mem, he]
  have hother {i : EntryId} (hi : i ∈ order) : i ≠ e := fun hie => hnew (hie ▸ hi)
  refine ⟨?_, fun i => ?_, fun c => ?_, fun b rb hb a => ?_⟩
  · exact h.nodup.append (List.nodup_singleton e) (by simpa using hnew)
  · by_cases hi : i = e
    · subst hi
      simp [Waiting.records_add_same]
    · simp [Waiting.records_add_other w r hi, h.mem, hi]
  · have hold : order.filter (fun i => ((w.add e r).records i).any (fun q => decide (q.cls = c)))
        = w.queues c := by
      rw [h.queue]
      exact List.filter_congr fun i hi => by rw [Waiting.records_add_other w r (hother hi)]
    rw [List.filter_append, hold]
    by_cases hc : c = r.cls
    · simp [Waiting.add, hc]
    · simp [Waiting.add, hc, Ne.symm hc]
  · by_cases hbe : b = e
    · subst hbe
      rw [Waiting.records_add_same, Option.some.injEq] at hb
      subst hb
      rw [pair_sublist_append_self, hwait, h.mem]
      by_cases hab : a = b
      · subst hab
        simp [he]
      · rw [Waiting.records_add_other w r hab]
        exact ⟨fun ⟨ra, hra, ho⟩ => ⟨⟨ra, hra⟩, ra, hra, ho⟩, And.right⟩
    · rw [Waiting.records_add_other w r hbe] at hb
      rw [pair_sublist_append_of_ne hbe, h.waits b rb hb]
      refine and_congr_right fun hsub => ?_
      have ha : a ∈ order := hsub.subset (by simp)
      rw [Waiting.records_add_other w r (hother ha)]

end Sys2Proof.Machine


namespace Sys2Proof.Machine

set_option Elab.async false

/-! ## What an event makes of the waiting requests -/

/-- The waiting requests are read off the ledger. -/
theorem State.waiting_of_ledger_eq {s t : State} (h : t.ledger = s.ledger) : t.waiting = s.waiting := by
  have hqueues : t.pool.queues = s.pool.queues := congrArg Ledger.queues h
  refine Waiting.ext ?_ (funext fun e => ?_)
  · simp only [State.waiting, hqueues]
  · have := congrArg HoldEntry.waiting? (State.entry_of_ledger_eq h e)
    rwa [HoldEntry.waiting?_unflagged, HoldEntry.waiting?_unflagged] at this

@[simp] theorem State.waiting_raise (s : State) (body : IncidentBody) :
    (s.raise body).waiting = s.waiting := State.waiting_of_ledger_eq (by simp)

@[simp] theorem State.waiting_completeQuiesce (s : State) : s.completeQuiesce.waiting = s.waiting :=
  State.waiting_of_ledger_eq (by simp)

@[simp] theorem State.waiting_chooseOffer (s : State) : s.chooseOffer.waiting = s.waiting := by
  rw [s.chooseOffer_eq.1]
  rfl

theorem State.waiting_fabricLinkUp (s : State) : s.fabricLinkUp.waiting = s.waiting := by
  unfold State.fabricLinkUp
  split
  · exact State.waiting_raise _ _
  · rfl

theorem State.waiting_memoryLinkDown (s : State) : s.memoryLinkDown.waiting = s.waiting := by
  by_cases hm : s.mem.link = .down
  · rw [State.memoryLinkDown, hm]
  · obtain ⟨p, heq, hp⟩ := s.memoryLinkDown_joined hm
    rw [heq, State.waiting_chooseOffer, State.waiting_of_ledger_eq hp]
    rfl

theorem State.waiting_refuseRequest (s : State) (req : FabricRequest) (owed : RefusalStatus)
    (count : GlobalCounter) (body : IncidentBody) :
    (s.refuseRequest req owed count body).waiting = s.waiting := by
  rw [State.refuseRequest, State.waiting_chooseOffer, State.waiting_raise]
  rfl

theorem State.waiting_reportStall (s : State) : s.reportStall.waiting = s.waiting := by
  unfold State.reportStall
  split
  · split
    · exact State.waiting_raise _ _
    · rfl
  all_goals rfl

theorem State.waiting_expireSlot (s : State) (k : SlotId) : (s.expireSlot k).waiting = s.waiting := by
  unfold State.expireSlot State.expire
  split
  · split
    · dsimp only
      split
      · rw [State.waiting_chooseOffer, State.waiting_completeQuiesce, State.waiting_raise]
        rfl
      · exact State.waiting_raise _ _
    · rfl
  all_goals rfl

theorem State.waiting_takeResponse (s : State) (resp : MemResponse) :
    (s.takeResponse resp).waiting = s.waiting := by
  unfold State.takeResponse
  split <;> rfl

/-- The match concerns slots and the return register only (R126). -/
theorem State.waiting_matchWith (s : State) (resp : MemResponse) :
    (s.matchWith resp).waiting = s.waiting := by
  have hstray : (s.stray (tagSlot resp.tag) resp).waiting = s.waiting :=
    (State.waiting_of_ledger_eq (s.ledger_stray (tagSlot resp.tag) resp)).trans rfl
  have hsupersede (r : SlotRecord) : (s.supersede (tagSlot resp.tag) r resp).waiting = s.waiting := by
    obtain ⟨p, heq, hp⟩ := s.ledger_supersede (tagSlot resp.tag) r resp
    rw [heq, State.waiting_chooseOffer, State.waiting_of_ledger_eq hp]
    rfl
  unfold State.matchWith
  dsimp only
  split
  · split
    · rename_i r _ overdue _
      obtain ⟨p, heq, hp⟩ := s.ledger_complete (tagSlot resp.tag) r overdue resp
      rw [heq, State.waiting_chooseOffer, State.waiting_of_ledger_eq hp]
      rfl
    · exact hsupersede _
    · exact hsupersede _
    · exact (State.waiting_of_ledger_eq (s.ledger_absorb (tagSlot resp.tag) _)).trans rfl
    · exact hstray
  · exact hstray

theorem State.waiting_realLeaves (s : State) : s.realLeaves.waiting = s.waiting := by
  unfold State.realLeaves State.enterTotal
  split
  · rw [State.waiting_chooseOffer]
    split <;> rfl
  · rfl

/-- An entry whose answer is taken was CANCELLING, so it did not wait (R148). -/
theorem State.waiting_ownerAnswered (s : State) (o : Owner) : (s.ownerAnswered o).waiting = s.waiting := by
  unfold State.ownerAnswered
  split
  · split <;> rfl
  · rename_i e
    split
    · rename_i r he
      refine Waiting.ext rfl (funext fun i => ?_)
      simp only [State.waiting, State.setEntry_pool_entries, entries_set]
      split
      · rename_i hi
        rw [hi, he]
        rfl
      · rfl
    all_goals rfl
  · split <;> rfl

theorem State.waiting_answerLeaves (s : State) : s.answerLeaves.waiting = s.waiting := by
  unfold State.answerLeaves
  split
  · rw [State.waiting_chooseOffer, State.waiting_ownerAnswered]
    rfl
  · rfl

/-! ### Where the pool is emptied, where a head is forwarded, and where a queue is discarded -/

theorem Waiting.without_eq_self (w : Waiting) : w.without (fun _ => false) = w := by
  simp [Waiting.without]

/-- Nothing waits in an empty pool. -/
theorem State.waiting_of_empty {t : State} (h : t.pool = HoldPool.empty) (s : State) :
    t.waiting = s.waiting.without (fun _ => true) := by
  refine Waiting.ext (funext fun c => ?_) (funext fun e => ?_)
  · simp [State.waiting, Waiting.without, h, HoldPool.empty]
  · simp [State.waiting, Waiting.without, h, HoldPool.empty, HoldEntry.waiting?]

theorem State.waiting_fabricLinkDown {s : State} (h : s.ret.link = .up) :
    s.fabricLinkDown.waiting = s.waiting.without (fun _ => true) :=
  (State.waiting_of_ledger_eq (State.ledger_fabricLinkDown h)).trans (State.waiting_of_empty rfl s)

theorem HoldEntry.waiting?_dropMember (i : EntryId) (x : HoldEntry) :
    (x.dropMember i).waiting? = x.waiting?.map (fun r =>
      { r with waitList := r.waitList.filter (fun a => !decide (a = i)) }) := by
  cases x <;> simp [HoldEntry.dropMember, HoldEntry.waiting?]

/-- The tail of a queue is the queue without its head. -/
theorem tail_eq_filter_ne {l : List EntryId} {e : EntryId} (h : l.head? = some e) (hl : l.Nodup) :
    l.tail = l.filter (fun i => !decide (i = e)) := by
  cases l with
  | nil => cases h
  | cons a l =>
    cases h
    have he : ∀ i ∈ l, i ≠ e := fun i hi hie => (List.nodup_cons.mp hl).1 (hie ▸ hi)
    rw [List.filter_cons_of_neg (by simp), List.tail_cons, eq_comm, List.filter_eq_self]
    simpa using he

/-- A forwarding takes its head, and nothing else, from those that wait (R33, R109). -/
theorem State.waiting_forwardHead {s : State} {order : List EntryId} (hs : s.PlacedInOrder order)
    {c : ClassId} {e : EntryId} (hhead : s.head? c = some e) (r : HoldRecord) (k : SlotId) :
    (s.forwardHead c e r k).waiting = s.waiting.without (fun i => decide (i = e)) := by
  have hw := State.placedInOrder_iff.mp hs
  have hmem : e ∈ s.waiting.queues c := List.mem_of_mem_head? hhead
  rw [State.waiting_of_ledger_eq (s.ledger_forwardHead c e r k)]
  refine Waiting.ext (funext fun d => ?_) (funext fun i => ?_)
  · simp only [State.waiting, Waiting.without, State.removeHead_pool_queues, State.allocate_pool, queues_set]
    split
    · rename_i hd
      subst hd
      exact tail_eq_filter_ne hhead (hw.queue_nodup d)
    · rename_i hd
      rw [eq_comm, List.filter_eq_self]
      intro i hi
      have hie : i ≠ e := fun hie => hd (hw.queues_disjoint (hie ▸ hi) hmem)
      simpa using hie
  · have hmap (v : Vector HoldEntry 192) : (v.map (HoldEntry.dropMember e))[i] = v[i].dropMember e := by
      simp
    simp only [State.waiting, Waiting.without, State.removeHead_pool_entries, State.allocate_pool, hmap,
      entries_set, HoldEntry.waiting?_dropMember]
    by_cases hi : i = e <;> simp [hi, HoldEntry.waiting?]

/-- A discard takes its class's queue, and nothing else, from those that wait (R34). -/
theorem State.waiting_takeDiscard {s : State} {order : List EntryId} (hs : s.PlacedInOrder order)
    (argument : Byte) (n : ClassId) :
    (s.takeDiscard argument n).waiting = s.waiting.without (fun e => decide (e ∈ s.pool.queues[n])) := by
  have hw := State.placedInOrder_iff.mp hs
  have hframe := State.foldl_cancelEntry_frame s.pool.queues[n] s
  have hquiet : (s.takeDiscard argument n).waiting
      = (((s.pool.queues[n].foldl State.cancelEntry s).setQueue n []).joinAnswers
          (s.pool.queues[n].map Owner.entry)).waiting := by
    rw [State.takeDiscard, State.waiting_chooseOffer]
    exact State.waiting_of_ledger_eq
      (by rw [State.ledger_done, State.ledger_noteBudgetWaits, State.ledger_countClass])
  rw [hquiet]
  refine Waiting.ext (funext fun d => ?_) (funext fun e => ?_)
  · simp only [State.waiting, Waiting.without, State.joinAnswers_pool, State.setQueue_pool_queues,
      queues_set]
    split
    · rename_i hd
      subst hd
      simp
    · rename_i hd
      rw [hframe, eq_comm, List.filter_eq_self]
      intro i hi
      have : i ∉ s.pool.queues[n] := fun hn => hd (hw.queues_disjoint hi hn)
      simpa using this
  · simp only [State.waiting, Waiting.without, State.joinAnswers_pool, State.setQueue_pool_entries,
      State.foldl_cancelEntry_entry]
    cases he : s.pool.entries[e] with
    | queued r => by_cases hq : e ∈ s.pool.queues[n] <;> simp [-Fin.getElem_fin, hq, HoldEntry.waiting?]
    | free => simp [HoldEntry.waiting?]
    | cancelling r => simp [HoldEntry.waiting?]

/-! ### Where a request is placed -/

/-- A placement adds one to those that wait, with its wait list (R20, R42). -/
theorem State.Placed.waiting {s t : State} {e : EntryId} {r : HoldRecord} (h : s.Placed e r t) :
    t.waiting
      = s.waiting.add e { r with waitList := s.waitListFor r, waitedForBudget := false } := by
  refine Waiting.ext (funext fun c => ?_) (funext fun i => ?_)
  · by_cases hc : c = r.cls
    · subst hc
      exact h.queue.trans (if_pos rfl).symm
    · exact (h.queues c hc).trans (if_neg hc).symm
  · by_cases hi : i = e
    · subst hi
      obtain ⟨flag, hflag⟩ := h.entry
      rw [Waiting.records_add_same]
      exact congrArg HoldEntry.waiting? hflag
    · rw [Waiting.records_add_other _ _ hi]
      have := congrArg HoldEntry.waiting? (h.others i hi)
      rwa [HoldEntry.waiting?_unflagged, HoldEntry.waiting?_unflagged] at this

/-! ## The placement order follows every event -/

/-- From `s` to `t` a placement order is only extended by an entry made QUEUED, or thinned (R45). -/
def State.OrderFollows (s t : State) : Prop :=
  ∀ order : List EntryId, s.PlacedInOrder order → ∃ order' : List EntryId, t.PlacedInOrder order'
    ∧ (List.Sublist order' order
      ∨ ∃ e : EntryId, order' = order ++ [e] ∧ s.pool.entries[e] = .free
          ∧ t.pool.entries[e].isQueued = true)

/-- The order follows where some of those that wait leave. -/
theorem State.OrderFollows.of_without {s t : State} {leaves : EntryId → Bool}
    (h : ∀ order : List EntryId, s.PlacedInOrder order → t.waiting = s.waiting.without leaves) :
    s.OrderFollows t := by
  intro order hs
  refine ⟨order.filter (fun e => !leaves e), ?_, .inl List.filter_sublist⟩
  rw [State.placedInOrder_iff, h order hs]
  exact (State.placedInOrder_iff.mp hs).without leaves

theorem State.OrderFollows.of_waiting_eq {s t : State} (h : t.waiting = s.waiting) : s.OrderFollows t :=
  .of_without (leaves := fun _ => false) fun _ _ => by rw [h, Waiting.without_eq_self]

theorem State.OrderFollows.of_ledger_eq {s t : State} (h : t.ledger = s.ledger) : s.OrderFollows t :=
  .of_waiting_eq (State.waiting_of_ledger_eq h)

theorem State.OrderFollows.refl (s : State) : s.OrderFollows s := .of_waiting_eq rfl

theorem State.OrderFollows.of_empty (s : State) {t : State} (h : t.pool = HoldPool.empty) :
    s.OrderFollows t :=
  .of_without fun _ _ => State.waiting_of_empty h s

/-- The order follows where a request is placed in a FREE entry: it waits on every QUEUED entry that
it overlaps. -/
theorem State.OrderFollows.of_placed {s t : State} {e : EntryId} {r : HoldRecord}
    (he : s.pool.entries[e] = .free) (h : s.Placed e r t) : s.OrderFollows t := by
  intro order hs
  have hnone : s.waiting.records e = none := congrArg HoldEntry.waiting? he
  have hlist (a : EntryId) := (s.mem_waitListFor r a).trans State.exists_queued_overlapping
  refine ⟨order ++ [e], ?_, .inr ⟨e, rfl, he, ?_⟩⟩
  · rw [State.placedInOrder_iff, h.waiting]
    exact (State.placedInOrder_iff.mp hs).add hnone hlist
  · obtain ⟨flag, hflag⟩ := h.entry
    rw [hflag]
    rfl

/-- A quiet update after an event. -/
theorem State.OrderFollows.then_quiet {s t u : State} (h : s.OrderFollows t) (hu : u.waiting = t.waiting) :
    s.OrderFollows u := by
  intro order hs
  obtain ⟨order', ht, hextends⟩ := h order hs
  rw [State.placedInOrder_iff] at ht
  refine ⟨order', State.placedInOrder_iff.mpr (hu ▸ ht), ?_⟩
  simpa only [State.isQueued_iff_records, hu] using hextends

theorem State.tryPlace_orderFollows {s t : State} {r : HoldRecord} (h : s.tryPlace r = some t) :
    s.OrderFollows t := by
  obtain ⟨e, he, hplaced⟩ := State.placed_of_tryPlace h
  exact .of_placed he hplaced

theorem State.retryPlacement_orderFollows (s : State) : s.OrderFollows s.retryPlacement := by
  unfold State.retryPlacement
  split
  · split
    · rename_i t ht
      exact (State.tryPlace_orderFollows ht).then_quiet rfl
    · exact .refl s
  all_goals exact .refl s

theorem State.arrive_orderFollows (s : State) (req : FabricRequest) : s.OrderFollows (s.arrive req) := by
  unfold State.arrive State.acceptRequest
  split
  · split
    · exact .of_waiting_eq (s.waiting_refuseRequest _ _ _ _)
    · split
      · exact .of_waiting_eq (s.waiting_refuseRequest _ _ _ _)
      · split
        · exact State.tryPlace_orderFollows ‹_›
        · exact .of_waiting_eq rfl
  · exact .refl s

theorem State.fabricLinkDown_orderFollows (s : State) : s.OrderFollows s.fabricLinkDown := by
  cases hl : s.ret.link with
  | down => rw [State.fabricLinkDown, hl]; exact .refl s
  | up => exact .of_without fun _ _ => State.waiting_fabricLinkDown hl

/-! ### The arbiter's choice -/

/-- The arbiter chooses only a class whose head is READY (R107). -/
theorem State.ready_of_chooseClass {s : State} {c : ClassId} (h : s.chooseClass = some c) :
    s.headCondition c = .ready := by
  obtain ⟨l, -, hl⟩ := List.exists_of_findSome?_eq_some h
  have := List.find?_some hl
  simp only [State.eligible, Bool.and_eq_true, decide_eq_true_eq] at this
  exact this.1

/-- Everything FORWARDING can do: nothing, or the forwarding of a READY head (R105, R107). -/
theorem State.forwardChoice_cases (s : State) : s.forwardChoice = s
    ∨ ∃ (c : ClassId) (e : EntryId) (r : HoldRecord) (k : SlotId), s.headCondition c = .ready
      ∧ s.head? c = some e ∧ s.pool.entries[e] = .queued r
      ∧ s.forwardChoice = (s.movePointer c).forwardHead c e r k := by
  unfold State.forwardChoice
  split
  · rename_i c _ hc
    split
    · rename_i e k he _
      split
      · exact .inr ⟨c, e, _, k, State.ready_of_chooseClass hc, he, ‹_›, rfl⟩
      all_goals exact .inl rfl
    · exact .inl rfl
  · exact .inl rfl

theorem State.forwardChoice_orderFollows (s : State) : s.OrderFollows s.forwardChoice := by
  rcases s.forwardChoice_cases with h | ⟨c, e, r, k, -, hhead, -, h⟩ <;> rw [h]
  · exact .refl s
  · exact .of_without fun _ hs =>
      State.waiting_forwardHead (s := s.movePointer c) hs hhead r k

end Sys2Proof.Machine


namespace Sys2Proof.Machine

set_option Elab.async false

/-! ## The placement order over all commands -/

theorem State.takeDefaults_orderFollows (s : State) (argument : Byte) :
    s.OrderFollows (s.takeDefaults argument) := by
  unfold State.takeDefaults
  split
  · exact .of_waiting_eq rfl
  · split
    · exact .of_waiting_eq rfl
    · split
      · exact .of_waiting_eq rfl
      · exact State.retryPlacement_orderFollows (s.restoreDefaults.done 12 argument 0)

/-- At the port's judgement of a command the order follows where it does at the owner (R184). -/
theorem State.command_orderFollows (s : State) (code argument : Byte) {owner : State → State}
    (h : ∀ t : State, t.OrderFollows (owner t)) : s.OrderFollows (s.command code argument owner) := by
  unfold State.command
  split
  · exact .of_waiting_eq rfl
  · exact h { s with port.commandCode := code, port.commandArgument := argument }

theorem State.classCommand_orderFollows (s : State) (code argument : Byte)
    {owner : ClassId → State → State} (h : ∀ (n : ClassId) (t : State), t.OrderFollows (owner n t)) :
    s.OrderFollows (s.classCommand code argument owner) := by
  refine s.command_orderFollows code argument fun t => ?_
  split
  · exact h _ t
  · exact .of_waiting_eq rfl

/-- Of the commands of the command register only CLASS_DISCARD and DEFAULTS move what waits (R34, R187). -/
theorem State.writeCommand_orderFollows (s : State) (code b : Byte) :
    s.OrderFollows (s.writeCommand code b) := by
  unfold State.writeCommand
  split
  · exact s.command_orderFollows 1 b fun t => .of_ledger_eq (t.ledger_takeQuiesce b)
  · exact s.command_orderFollows 2 b fun t => .of_ledger_eq (t.ledger_takeResume b)
  · exact s.command_orderFollows 3 b fun _ => .of_ledger_eq rfl
  · exact s.classCommand_orderFollows 4 b fun n t => .of_ledger_eq (t.ledger_takeCommit b n)
  · exact s.classCommand_orderFollows 5 b fun n t => .of_ledger_eq (t.ledger_takeApply b n)
  · exact s.classCommand_orderFollows 6 b fun n t => .of_without fun _ ht => t.waiting_takeDiscard ht b n
  · exact s.command_orderFollows 7 b fun _ => .of_waiting_eq rfl
  · exact s.command_orderFollows 8 b fun t => .of_ledger_eq (t.ledger_takeSnapshotCommand b)
  · exact s.command_orderFollows 9 b fun t => .of_ledger_eq (t.ledger_takeRelease b)
  · exact s.command_orderFollows 10 b fun _ => .of_ledger_eq rfl
  · exact s.command_orderFollows 11 b fun _ => .of_ledger_eq rfl
  · exact s.command_orderFollows 12 b fun t => t.takeDefaults_orderFollows b
  · exact s.command_orderFollows code b fun _ => .of_ledger_eq rfl

theorem State.waiting_writeStallLimit (s : State) (v : BitVec 16) :
    (s.writeStallLimit v).waiting = s.waiting :=
  State.waiting_reportStall { s with intake.stallLimit := v }

theorem State.takeField_orderFollows (s : State) (f : Field) (bytes : List Byte) :
    s.OrderFollows (s.takeField f bytes) := by
  cases f
  case stallLimit => exact .of_waiting_eq (s.waiting_writeStallLimit _)
  case boundaries => exact .of_ledger_eq (s.ledger_writeBoundaries _)
  case command => exact s.writeCommand_orderFollows _ _
  case shadowEntry e => exact .of_ledger_eq (s.ledger_writeShadow e _)
  all_goals exact .of_ledger_eq rfl

theorem State.writeByte_orderFollows (s : State) (f : Field) (i : Nat) (b : Byte) :
    s.OrderFollows (s.writeByte f i b) := by
  unfold State.writeByte
  split
  · split
    · split
      · exact State.takeField_orderFollows (s.setAssembly none) f _
      · exact .of_waiting_eq rfl
    · exact .of_waiting_eq rfl
  · exact .of_waiting_eq rfl

theorem State.windowWrite_orderFollows (s : State) (b : Byte) : s.OrderFollows (s.windowWrite b) := by
  unfold State.windowWrite
  split
  · cases fieldAt s.port.offset with
    | none => exact .of_waiting_eq rfl
    | some p =>
      have h : s.OrderFollows ({ s with port.ack := true }.writeByte p.1 p.2 b) :=
        State.writeByte_orderFollows { s with port.ack := true } p.1 p.2 b
      exact h.then_quiet rfl
  all_goals exact .refl s

theorem orderFollows_of_whenRunning {s t : State} {f : State → State}
    (h : (.next (s.whenRunning f) : Host.Outcome State Fault Refusal) = .next t)
    (hf : s.OrderFollows (f s)) : s.OrderFollows t :=
  of_whenRunning s.OrderFollows h (.refl s) hf

theorem quiet_of_whenRunning {s t : State} {f : State → State}
    (h : (.next (s.whenRunning f) : Host.Outcome State Fault Refusal) = .next t)
    (hf : (f s).waiting = s.waiting) : s.OrderFollows t :=
  orderFollows_of_whenRunning h (.of_waiting_eq hf)

/-- Every command only extends the placement order at its end, or thins it (R45). -/
theorem exec_orderFollows {c : Instr} {s t : State} (h : exec c s = .next t) : s.OrderFollows t := by
  cases c
  case powerOnReset => cases h; exact .of_empty s rfl
  case resetNAssertion lowNs =>
    simp only [exec, execResetNAssertion] at h
    split at h
    · cases h; exact .refl s
    · exact orderFollows_of_whenRunning h (.of_empty s rfl)
  case resetEnd straps =>
    cases h
    split
    · exact .refl s
    all_goals exact .of_waiting_eq rfl
  case fabricLinkUp => exact quiet_of_whenRunning h s.waiting_fabricLinkUp
  case fabricLinkDown => exact orderFollows_of_whenRunning h s.fabricLinkDown_orderFollows
  case memoryLinkUp => exact orderFollows_of_whenRunning h (.of_ledger_eq s.ledger_memoryLinkUp)
  case memoryLinkDown => exact quiet_of_whenRunning h s.waiting_memoryLinkDown
  case creditGrant m => exact orderFollows_of_whenRunning h (.of_ledger_eq (s.ledger_creditGrant _))
  case creditReturn m => exact orderFollows_of_whenRunning h (.of_ledger_eq (s.ledger_creditReturn _))
  case fabricRequestArrival req => exact orderFollows_of_whenRunning h (s.arrive_orderFollows req)
  case placementRetry => exact orderFollows_of_whenRunning h s.retryPlacement_orderFollows
  case intakeStall => exact quiet_of_whenRunning h s.waiting_reportStall
  case periodBoundary cls =>
    refine orderFollows_of_whenRunning h ?_
    split
    · exact .of_ledger_eq (s.ledger_takeBoundary cls false)
    · exact .refl s
  case forwarding => exact orderFollows_of_whenRunning h s.forwardChoice_orderFollows
  case deadlineExpiry slot => exact quiet_of_whenRunning h (s.waiting_expireSlot slot)
  case memoryResponseTaken resp => exact quiet_of_whenRunning h (s.waiting_takeResponse resp)
  case matchResponse =>
    refine quiet_of_whenRunning h ?_
    split
    · exact s.waiting_matchWith _
    all_goals rfl
  case quiesceCompletion => exact quiet_of_whenRunning h s.waiting_completeQuiesce
  case realResponseLeaves => exact quiet_of_whenRunning h s.waiting_realLeaves
  case answerLeaves => exact quiet_of_whenRunning h s.waiting_answerLeaves
  case autoSnapshotExpiry =>
    refine orderFollows_of_whenRunning h ?_
    split
    · exact .of_ledger_eq s.ledger_autoExpiry
    · exact .refl s
  case i2cAddress address direction =>
    exact orderFollows_of_whenRunning h (.of_ledger_eq (s.ledger_i2cAddress address direction))
  case offsetWrite high low =>
    exact orderFollows_of_whenRunning h (.of_ledger_eq (s.ledger_offsetWrite high low))
  case windowWrite byte => exact orderFollows_of_whenRunning h (s.windowWrite_orderFollows byte)
  case fieldLatch =>
    refine orderFollows_of_whenRunning h ?_
    split
    · exact .of_ledger_eq (s.ledger_sendAt _)
    all_goals exact .refl s
  case incidentHeadLatch => exact orderFollows_of_whenRunning h (.of_ledger_eq (s.ledger_sendAt _))
  case incidentHeadRemove => exact orderFollows_of_whenRunning h (.of_ledger_eq (s.ledger_sendAt _))
  case shadowEntryWrite index value =>
    exact orderFollows_of_whenRunning h (.of_ledger_eq (s.ledger_writeShadow index value))
  case stallLimitWrite value => exact quiet_of_whenRunning h (s.waiting_writeStallLimit value)
  case histogramBoundariesWrite values =>
    exact orderFollows_of_whenRunning h (.of_ledger_eq (s.ledger_writeBoundaries values))
  case quiesce b => exact orderFollows_of_whenRunning h (s.writeCommand_orderFollows 1 b)
  case resume b => exact orderFollows_of_whenRunning h (s.writeCommand_orderFollows 2 b)
  case mapSwap b => exact orderFollows_of_whenRunning h (s.writeCommand_orderFollows 3 b)
  case classCommit b => exact orderFollows_of_whenRunning h (s.writeCommand_orderFollows 4 b)
  case classApply b => exact orderFollows_of_whenRunning h (s.writeCommand_orderFollows 5 b)
  case classDiscard b => exact orderFollows_of_whenRunning h (s.writeCommand_orderFollows 6 b)
  case purge b => exact orderFollows_of_whenRunning h (s.writeCommand_orderFollows 7 b)
  case snapshot b => exact orderFollows_of_whenRunning h (s.writeCommand_orderFollows 8 b)
  case snapshotRelease b => exact orderFollows_of_whenRunning h (s.writeCommand_orderFollows 9 b)
  case statsClear b => exact orderFollows_of_whenRunning h (s.writeCommand_orderFollows 10 b)
  case incidentsClear b => exact orderFollows_of_whenRunning h (s.writeCommand_orderFollows 11 b)
  case defaults b => exact orderFollows_of_whenRunning h (s.writeCommand_orderFollows 12 b)
  case unknownCommandCode code b => exact orderFollows_of_whenRunning h (s.writeCommand_orderFollows code b)
  case sendCompletion | transferEnd | stagedSettingWrite | defaultClassWrite
      | autoSnapshotIntervalWrite | alertFlagsWrite | alertEnablesWrite | timeCountAdvance =>
    exact quiet_of_whenRunning h rfl

/-- Settles O6: at every command some of those that wait leave, or one joins them at the end. -/
theorem placementOrderKept : Obligations.PlacementOrderKept := by
  intro s t order hs h
  unfold step at h
  split at h
  · cases h
    exact State.OrderFollows.refl s order hs
  · exact exec_orderFollows h order hs

/-! ## What ordering hazards can hold back (R48, R53) -/

/-- A READY head waits on nothing (R95). -/
theorem State.waitListOf_of_ready {s : State} {c : ClassId} {e : EntryId} (h : s.headCondition c = .ready)
    (he : s.head? c = some e) : s.waitListOf e = [] := by
  by_contra hwait
  simp [State.headCondition, he, hwait] at h

/-- A head that waits on nothing is neither IDLE nor in ORDER_WAIT (R95). -/
theorem State.headCondition_of_unblocked {s : State} {c : ClassId} {e : EntryId}
    (he : s.head? c = some e) (hwait : s.waitListOf e = []) :
    s.headCondition c ≠ .idle ∧ s.headCondition c ≠ .orderWait := by
  unfold State.headCondition
  rw [he]
  simp only [hwait, ne_eq, not_true_eq_false, if_false]
  split_ifs <;> simp

theorem State.waitListOf_of_queued {s : State} {e : EntryId} {r : HoldRecord}
    (h : s.pool.entries[e] = .queued r) : s.waitListOf e = r.waitList := by
  rw [State.waitListOf, h]

/-- A request that waits on an earlier one is not the head that FORWARDING takes, so it stays QUEUED (R53). -/
theorem State.forwardChoice_isQueued {s : State} {order : List EntryId} (hs : s.PlacedInOrder order)
    {b : EntryId} {rb : HoldRecord} (hb : s.pool.entries[b] = .queued rb) (hwait : rb.waitList ≠ []) :
    s.forwardChoice.pool.entries[b].isQueued = true := by
  rcases s.forwardChoice_cases with h | ⟨c, e, r, k, hready, hhead, -, h⟩ <;> rw [h]
  · rw [hb]
    rfl
  · have hbe : b ≠ e := by
      rintro rfl
      exact hwait ((State.waitListOf_of_queued hb).symm.trans (State.waitListOf_of_ready hready hhead))
    rw [State.isQueued_iff_records, State.waiting_forwardHead (s := s.movePointer c) hs hhead r k]
    exact ⟨_, Waiting.records_without_eq_some.mpr
      ⟨by simpa using hbe, _, State.records_of_queued hb, rfl⟩⟩

/-- No entry stands before the first of a placement order. -/
theorem not_pair_sublist_head {α : Type} {a e : α} {l : List α} (h : (e :: l).Nodup) :
    ¬ List.Sublist [a, e] (e :: l) := by
  intro hsub
  exact (List.nodup_cons.mp h).1 (List.singleton_sublist.mp hsub.tail)

/-- The oldest QUEUED entry heads its class's queue and waits on nothing (R48). -/
theorem State.oldest_unblocked {s : State} {e : EntryId} {order : List EntryId}
    (hs : s.PlacedInOrder (e :: order)) : ∃ r : HoldRecord, s.pool.entries[e] = .queued r
      ∧ s.head? r.cls = some e ∧ r.waitList = [] := by
  obtain ⟨hnodup, hmem, hqueues, hwaits⟩ := hs
  have hqueued := (hmem e).mp List.mem_cons_self
  cases he : s.pool.entries[e] with
  | queued r =>
    refine ⟨r, rfl, ?_, List.eq_nil_iff_forall_not_mem.mpr fun a ha => ?_⟩
    · have hcls : s.pool.entries[e].ofClass r.cls = true := by
        rw [he]
        exact decide_eq_true rfl
      rw [State.head?, hqueues, List.filter_cons, if_pos hcls, List.head?_cons]
    · exact not_pair_sublist_head hnodup ((hwaits e r he a).mp ha).1
  | free => simp [-Fin.getElem_fin, he, HoldEntry.isQueued] at hqueued
  | cancelling r => simp [-Fin.getElem_fin, he, HoldEntry.isQueued] at hqueued

/-- Settles O22: what overlaps an earlier entry waits on it and is not READY, and the oldest entry waits on
nothing. -/
theorem hazardLaws : Obligations.HazardLaws := by
  refine ⟨fun s t order a b ra rb hs h ha hb hab ho => ?_, fun s e order hs => ?_⟩
  · have ⟨_, _, _, hwaits⟩ := hs
    have hwait : rb.waitList ≠ [] := List.ne_nil_of_mem ((hwaits b rb hb a).mpr ⟨hab, ra, ha, ho⟩)
    rcases eq_or_eq_of_whenRunning h with rfl | rfl
    · rw [hb]
      rfl
    · exact State.forwardChoice_isQueued hs hb hwait
  · obtain ⟨r, he, hhead, hwait⟩ := State.oldest_unblocked hs
    exact ⟨r.cls, r, he, rfl, hhead, hwait,
      State.headCondition_of_unblocked hhead ((State.waitListOf_of_queued he).trans hwait)⟩

end Sys2Proof.Machine


namespace Sys2Proof.Machine

set_option Elab.async false

/-! ## What no quiet event touches: the queue of commands, the pointers, the class map, the active settings -/

/-- What the commands are judged and forwarded by, with the queue of commands that wait (R74, R77, R108). -/
structure Setup where
  pending : List Instr
  pointers : Vector ClassId 4
  map : ClassMap
  active : ClassId → Settings

/-- The setup of a state. -/
def State.setup (s : State) : Setup :=
  { pending := s.pending, pointers := s.arbiter.pointers, map := s.map
    active := fun n => s.budget[n].active }

@[simp] theorem State.setup_raise (s : State) (body : IncidentBody) : (s.raise body).setup = s.setup := by
  rw [s.raise_frame body]
  rfl

@[simp] theorem State.setup_chooseOffer (s : State) : s.chooseOffer.setup = s.setup := by
  rw [s.chooseOffer_eq.1]
  rfl

@[simp] theorem State.setup_noteBudgetWaits (s : State) : s.noteBudgetWaits.setup = s.setup := by
  rw [State.setup, s.noteBudgetWaits_onlyFlags.frame]
  rfl

@[simp] theorem State.setup_completeQuiesce (s : State) : s.completeQuiesce.setup = s.setup := by
  unfold State.completeQuiesce
  split
  · split <;> rfl
  all_goals rfl

@[simp] theorem State.setup_done (s : State) (code argument : Byte) (d : Nat) :
    (s.done code argument d).setup = s.setup := rfl

/-- A class's account, pending flag or staged copy is no part of the setup. -/
theorem State.setup_setBudget (s : State) (c : ClassId) (b : ClassBudget)
    (h : b.active = s.budget[c].active) : (s.setBudget c b).setup = s.setup := by
  unfold State.setup
  rw [Setup.mk.injEq]
  refine ⟨rfl, rfl, rfl, funext fun n => ?_⟩
  rw [State.setBudget_budget, budget_set]
  split
  · rename_i hn
    rw [h, hn]
  · rfl

/-! ### The intake and the links -/

theorem State.setup_tryPlace {s t : State} {r : HoldRecord} (h : s.tryPlace r = some t) :
    t.setup = s.setup := by
  obtain ⟨e, -, hplaced⟩ := State.placed_of_tryPlace h
  rw [hplaced.frame]
  rfl

theorem State.setup_retryPlacement (s : State) : s.retryPlacement.setup = s.setup := by
  unfold State.retryPlacement
  split
  · split
    · rename_i q _ _ t ht
      have hend : (t.endStall q).setup = t.setup := rfl
      exact hend.trans (State.setup_tryPlace ht)
    · rfl
  all_goals rfl

theorem State.setup_reportStall (s : State) : s.reportStall.setup = s.setup := by
  unfold State.reportStall
  split
  · split
    · exact State.setup_raise _ _
    · rfl
  all_goals rfl

theorem State.setup_refuseRequest (s : State) (req : FabricRequest) (owed : RefusalStatus)
    (count : GlobalCounter) (body : IncidentBody) :
    (s.refuseRequest req owed count body).setup = s.setup := by
  rw [State.refuseRequest, State.setup_chooseOffer, State.setup_raise]
  rfl

theorem State.setup_arrive (s : State) (req : FabricRequest) : (s.arrive req).setup = s.setup := by
  unfold State.arrive State.acceptRequest
  split
  · split
    · exact s.setup_refuseRequest _ _ _ _
    · split
      · exact s.setup_refuseRequest _ _ _ _
      · split
        · exact State.setup_tryPlace ‹_›
        · rfl
  · rfl

theorem State.setup_fabricLinkUp (s : State) : s.fabricLinkUp.setup = s.setup := by
  unfold State.fabricLinkUp
  split
  · exact State.setup_raise _ _
  · rfl

theorem State.setup_dropIntake (s : State) : s.dropIntake.setup = s.setup := by
  unfold State.dropIntake
  split <;> rfl

theorem State.setup_fabricLinkDown (s : State) : s.fabricLinkDown.setup = s.setup := by
  unfold State.fabricLinkDown
  split
  · rfl
  · rw [State.setup_completeQuiesce, State.setup_raise]
    exact s.setup_dropIntake

theorem State.setup_memoryLinkUp (s : State) : s.memoryLinkUp.setup = s.setup := by
  unfold State.memoryLinkUp
  split
  · exact State.setup_raise _ _
  all_goals rfl

theorem State.setup_memoryLinkDown (s : State) : s.memoryLinkDown.setup = s.setup := by
  unfold State.memoryLinkDown
  split
  · rfl
  all_goals
    rw [State.setup_chooseOffer, State.setup_completeQuiesce, State.setup_raise]
    rfl

theorem State.setup_creditExcess (s : State) (case count : Nat) :
    (s.creditExcess case count).setup = s.setup :=
  State.setup_raise _ _

theorem State.setup_creditGrant (s : State) (n : Nat) : (s.creditGrant n).setup = s.setup := by
  unfold State.creditGrant
  split
  · rfl
  · rfl
  · exact s.setup_creditExcess 1 n

theorem State.setup_creditReturn (s : State) (k : Nat) : (s.creditReturn k).setup = s.setup := by
  unfold State.creditReturn
  split
  · rfl
  · exact s.setup_creditExcess 3 k
  · split
    · rfl
    · exact State.setup_creditExcess _ 2 k

/-! ### The transit table, the response return and the timer -/

theorem State.setup_expireSlot (s : State) (k : SlotId) : (s.expireSlot k).setup = s.setup := by
  unfold State.expireSlot State.expire
  split
  · split
    · dsimp only
      split
      · rw [State.setup_chooseOffer, State.setup_completeQuiesce, State.setup_raise]
        rfl
      · exact State.setup_raise _ _
    · rfl
  all_goals rfl

theorem State.setup_takeResponse (s : State) (resp : MemResponse) :
    (s.takeResponse resp).setup = s.setup := by
  unfold State.takeResponse
  split <;> rfl

theorem State.setup_supersede (s : State) (k : SlotId) (r : SlotRecord) (resp : MemResponse) :
    (s.supersede k r resp).setup = s.setup := by
  rw [State.supersede, State.setup_chooseOffer, State.setup_raise]
  rfl

theorem State.setup_matchWith (s : State) (resp : MemResponse) : (s.matchWith resp).setup = s.setup := by
  have hstray : (s.stray (tagSlot resp.tag) resp).setup = s.setup := State.setup_raise _ _
  unfold State.matchWith
  dsimp only
  split
  · split
    · rw [State.complete, State.setup_chooseOffer, State.setup_completeQuiesce]
      rfl
    · exact s.setup_supersede _ _ _
    · exact s.setup_supersede _ _ _
    · exact State.setup_raise _ _
    · exact hstray
  · exact hstray

theorem State.setup_realLeaves (s : State) : s.realLeaves.setup = s.setup := by
  unfold State.realLeaves State.enterTotal
  split
  · rw [State.setup_chooseOffer]
    split <;> rfl
  · rfl

theorem State.setup_ownerAnswered (s : State) (o : Owner) : (s.ownerAnswered o).setup = s.setup := by
  unfold State.ownerAnswered
  split <;> split <;> rfl

theorem State.setup_answerLeaves (s : State) : s.answerLeaves.setup = s.setup := by
  unfold State.answerLeaves
  split
  · rw [State.setup_chooseOffer, State.setup_ownerAnswered]
    rfl
  · rfl

theorem State.setup_autoExpiry (s : State) : s.autoExpiry.setup = s.setup := by
  unfold State.autoExpiry
  cases s.stats.bank.state with
  | empty => rfl
  | locked => exact State.setup_raise _ _

/-! ### The bus and the fields -/

theorem State.setup_i2cAddress (s : State) (address : BitVec 7) (direction : I2cDirection) :
    (s.i2cAddress address direction).setup = s.setup := by
  unfold State.i2cAddress
  split <;> rfl

theorem State.setup_offsetWrite (s : State) (high low : Byte) :
    (s.offsetWrite high low).setup = s.setup := by
  unfold State.offsetWrite
  split <;> rfl

theorem State.setup_sendAt (s : State) (offset : BitVec 16) : (s.sendAt offset).setup = s.setup := by
  have h : (s.readEffect offset).setup = s.setup := by
    unfold State.readEffect State.latchField State.removeHeadRecord
    split
    · rfl
    · split
      · split <;> rfl
      · split
        · split <;> rfl
        · rfl
  exact h

/-- A staged setting is no part of the active copy (R78). -/
theorem State.setup_writeStaged (s : State) (c : ClassId) (f : SettingField) (v : BitVec 16) :
    (s.writeStaged c f v).setup = s.setup :=
  s.setup_setBudget c _ rfl

theorem State.setup_writeBoundaries (s : State) (b : Vector (BitVec 16) 7) :
    (s.writeBoundaries b).setup = s.setup := by
  unfold State.writeBoundaries
  split
  · rfl
  · exact s.setup_raise _

/-! ## Which events may change the class map or a class's active settings (R74, R77) -/

/-- From `s` to `t` the queue of commands and the pointers stand, and so do the class map unless `remaps` and
the active settings unless `applies`. -/
structure State.SetupKept (remaps applies : Bool) (s t : State) : Prop where
  pending : t.pending = s.pending
  pointers : t.arbiter.pointers = s.arbiter.pointers
  map : remaps = false → t.map = s.map
  active : applies = false → ∀ n : ClassId, t.budget[n].active = s.budget[n].active

theorem State.SetupKept.of_setup_eq {s t : State} {remaps applies : Bool} (h : t.setup = s.setup) :
    s.SetupKept remaps applies t where
  pending := congrArg Setup.pending h
  pointers := congrArg Setup.pointers h
  map _ := congrArg Setup.map h
  active _ n := congrArg (fun x => x.active n) h

theorem State.SetupKept.refl (s : State) {remaps applies : Bool} : s.SetupKept remaps applies s :=
  .of_setup_eq rfl

theorem State.SetupKept.trans {s t u : State} {remaps applies : Bool} (h : s.SetupKept remaps applies t)
    (h' : t.SetupKept remaps applies u) : s.SetupKept remaps applies u where
  pending := h'.pending.trans h.pending
  pointers := h'.pointers.trans h.pointers
  map hm := (h'.map hm).trans (h.map hm)
  active ha n := (h'.active ha n).trans (h.active ha n)

/-- A quiet update before an event. -/
theorem State.SetupKept.after {s t u : State} {remaps applies : Bool} (h : t.SetupKept remaps applies u)
    (hst : t.setup = s.setup) : s.SetupKept remaps applies u :=
  (State.SetupKept.of_setup_eq hst).trans h

/-- An event that writes the class map only. -/
theorem State.SetupKept.of_map {s t : State} {applies : Bool}
    (h : t.setup = { s.setup with map := t.map }) : s.SetupKept true applies t where
  pending := congrArg Setup.pending h
  pointers := congrArg Setup.pointers h
  map hm := by cases hm
  active _ n := congrArg (fun x => x.active n) h

/-- An event that rewrites one class's budget unit: no other class's settings change. -/
theorem State.SetupKept.of_budget {s t : State} {c : ClassId} {b : ClassBudget}
    (h : t.setup = (s.setBudget c b).setup) : s.SetupKept false true t
      ∧ ∀ n : ClassId, n ≠ c → t.budget[n].active = s.budget[n].active := by
  refine ⟨⟨congrArg Setup.pending h, congrArg Setup.pointers h, fun _ => congrArg Setup.map h, nofun⟩,
    fun n hn => ?_⟩
  have hn' : t.budget[n].active = (s.setBudget c b).budget[n].active := congrArg (fun x => x.active n) h
  rw [hn', State.setBudget_budget, budget_set, if_neg hn]

theorem State.restoreDefaults_setupKept (s : State) :
    s.SetupKept true true s.restoreDefaults :=
  ⟨rfl, rfl, nofun, nofun⟩

theorem State.writeShadow_setupKept (s : State) (e : MapIndex) (m : MatchEntry) {applies : Bool} :
    s.SetupKept true applies (s.writeShadow e m) := by
  unfold State.writeShadow
  split <;> exact .of_map rfl

/-- A period boundary, natural or forced, makes no other class's settings active (R82, R85). -/
theorem State.takeBoundary_setupKept (s : State) (c : ClassId) (forced : Bool) :
    s.SetupKept false true (s.takeBoundary c forced)
      ∧ ∀ n : ClassId, n ≠ c → (s.takeBoundary c forced).budget[n].active = s.budget[n].active := by
  apply State.SetupKept.of_budget
  rw [State.takeBoundary, State.setup_noteBudgetWaits]

/-! ### The commands of the command register -/

theorem State.setup_takeQuiesce (s : State) (argument : Byte) :
    (s.takeQuiesce argument).setup = s.setup := by
  unfold State.takeQuiesce
  split
  · rw [State.setup_completeQuiesce]
    rfl
  all_goals rfl

theorem State.setup_takeResume (s : State) (argument : Byte) :
    (s.takeResume argument).setup = s.setup := by
  unfold State.takeResume
  split <;> rfl

theorem State.setup_takeCommit (argument : Byte) (n : ClassId) (s : State) :
    (s.takeCommit argument n).setup = s.setup := by
  unfold State.takeCommit
  split
  · exact s.setup_setBudget n { s.budget[n] with pending := true } rfl
  · rfl

theorem State.takeApply_setupKept (argument : Byte) (n : ClassId) (s : State) :
    s.SetupKept false true (s.takeApply argument n) := by
  unfold State.takeApply
  split
  · exact (s.takeBoundary_setupKept n true).1.trans (.of_setup_eq (State.setup_done _ _ _ _))
  · exact .of_setup_eq rfl

theorem State.setup_takeDiscard (argument : Byte) (n : ClassId) (s : State) :
    (s.takeDiscard argument n).setup = s.setup := by
  have hframe := State.foldl_cancelEntry_frame s.pool.queues[n] s
  rw [State.takeDiscard, State.setup_chooseOffer, State.setup_done, State.setup_noteBudgetWaits, hframe]
  rfl

theorem State.setup_takeSnapshotCommand (s : State) (argument : Byte) :
    (s.takeSnapshotCommand argument).setup = s.setup := by
  unfold State.takeSnapshotCommand
  split <;> rfl

theorem State.setup_takeRelease (s : State) (argument : Byte) :
    (s.takeRelease argument).setup = s.setup := by
  unfold State.takeRelease
  split <;> rfl

theorem State.takeDefaults_setupKept (s : State) (argument : Byte) :
    s.SetupKept true true (s.takeDefaults argument) := by
  unfold State.takeDefaults
  split
  · exact .of_setup_eq rfl
  · split
    · exact .of_setup_eq rfl
    · split
      · exact .of_setup_eq rfl
      · exact (s.restoreDefaults_setupKept.trans (.of_setup_eq (State.setup_done _ 12 argument 0))).trans
          (.of_setup_eq (State.setup_retryPlacement _))

theorem State.command_setupKept (s : State) (code argument : Byte) {owner : State → State}
    {remaps applies : Bool} (h : ∀ t : State, t.SetupKept remaps applies (owner t)) :
    s.SetupKept remaps applies (s.command code argument owner) := by
  unfold State.command
  split
  · exact .of_setup_eq rfl
  · exact (h { s with port.commandCode := code, port.commandArgument := argument }).after rfl

theorem State.classCommand_setupKept (s : State) (code argument : Byte)
    {owner : ClassId → State → State} {remaps applies : Bool}
    (h : ∀ (n : ClassId) (t : State), t.SetupKept remaps applies (owner n t)) :
    s.SetupKept remaps applies (s.classCommand code argument owner) := by
  refine s.command_setupKept code argument fun t => ?_
  split
  · exact h _ t
  · exact .of_setup_eq rfl

/-- The command code is MAP_SWAP's or DEFAULTS's (R67, R187). -/
def remapsCode (code : Byte) : Bool := decide (code = 3 ∨ code = 12)

/-- The command code is CLASS_APPLY's or DEFAULTS's (R82, R187). -/
def appliesCode (code : Byte) : Bool := decide (code = 5 ∨ code = 12)

/-- A code is the one that spells its number. -/
theorem code_eq_of_toNat {code : Byte} {n : Nat} (h : code.toNat = n) : code = BitVec.ofNat 8 n := by
  rw [← h, BitVec.ofNat_toNat, BitVec.setWidth_eq]

/-- Of the commands of the command register only MAP_SWAP, CLASS_APPLY and DEFAULTS touch the setup. -/
theorem State.writeCommand_setupKept (s : State) (code b : Byte) :
    s.SetupKept (remapsCode code) (appliesCode code) (s.writeCommand code b) := by
  unfold State.writeCommand
  split
  · exact s.command_setupKept 1 b fun t => .of_setup_eq (t.setup_takeQuiesce b)
  · exact s.command_setupKept 2 b fun t => .of_setup_eq (t.setup_takeResume b)
  · rename_i hcode
    obtain rfl := code_eq_of_toNat hcode
    exact s.command_setupKept 3 b fun _ => .of_map rfl
  · exact s.classCommand_setupKept 4 b fun n t => .of_setup_eq (t.setup_takeCommit b n)
  · rename_i hcode
    obtain rfl := code_eq_of_toNat hcode
    exact s.classCommand_setupKept 5 b fun n t => t.takeApply_setupKept b n
  · exact s.classCommand_setupKept 6 b fun n t => .of_setup_eq (t.setup_takeDiscard b n)
  · exact s.command_setupKept 7 b fun _ => .of_setup_eq rfl
  · exact s.command_setupKept 8 b fun t => .of_setup_eq (t.setup_takeSnapshotCommand b)
  · exact s.command_setupKept 9 b fun t => .of_setup_eq (t.setup_takeRelease b)
  · exact s.command_setupKept 10 b fun _ => .of_setup_eq rfl
  · exact s.command_setupKept 11 b fun _ => .of_setup_eq rfl
  · rename_i hcode
    obtain rfl := code_eq_of_toNat hcode
    exact s.command_setupKept 12 b fun t => t.takeDefaults_setupKept b
  · exact s.command_setupKept code b fun _ => .of_setup_eq rfl

/-! ### A window byte, and every command -/

/-- What may write the class map and apply settings may leave them too. -/
theorem State.SetupKept.weaken {s t : State} {remaps applies : Bool} (h : s.SetupKept remaps applies t) :
    s.SetupKept true true t :=
  ⟨h.pending, h.pointers, nofun, nofun⟩

theorem State.takeField_setupKept (s : State) (f : Field) (bytes : List Byte) :
    s.SetupKept true true (s.takeField f bytes) := by
  cases f
  case stallLimit => exact .of_setup_eq (State.setup_reportStall _)
  case boundaries => exact .of_setup_eq (s.setup_writeBoundaries _)
  case command => exact (s.writeCommand_setupKept _ _).weaken
  case shadowEntry e => exact s.writeShadow_setupKept e _
  case defaultClass => exact .of_map rfl
  case staged c f => exact .of_setup_eq (s.setup_writeStaged c f _)
  all_goals exact .of_setup_eq rfl

theorem State.writeByte_setupKept (s : State) (f : Field) (i : Nat) (b : Byte) :
    s.SetupKept true true (s.writeByte f i b) := by
  unfold State.writeByte
  split
  · split
    · split
      · exact (State.takeField_setupKept (s.setAssembly none) f _).after rfl
      · exact .of_setup_eq rfl
    · exact .of_setup_eq rfl
  · exact .of_setup_eq rfl

theorem State.windowWrite_setupKept (s : State) (b : Byte) : s.SetupKept true true (s.windowWrite b) := by
  unfold State.windowWrite
  split
  · cases fieldAt s.port.offset with
    | none => exact .of_setup_eq rfl
    | some p =>
      have h := State.writeByte_setupKept { s with port.ack := true } p.1 p.2 b
      exact (h.after (s := s) rfl).trans (.of_setup_eq rfl)
  all_goals exact .refl s

@[simp] theorem State.setup_offerHold (s : State) (c : ClassId) (t : Time) :
    (s.offerHold c t).setup = s.setup := rfl

@[simp] theorem State.setup_countClass (s : State) (c : ClassId) (k : ClassCounter) (n : Nat) :
    (s.countClass c k n).setup = s.setup := rfl

@[simp] theorem State.setup_send (s : State) (k : SlotId) (epoch : BitVec 3) (r : HoldRecord) :
    (s.send k epoch r).setup = s.setup := rfl

@[simp] theorem State.setup_removeHead (s : State) (c : ClassId) (e : EntryId) :
    (s.removeHead c e).setup = s.setup := rfl

/-- A charge is to the account (R87). -/
@[simp] theorem State.setup_charge (s : State) (c : ClassId) (length : Nat) :
    (s.charge c length).setup = s.setup := by
  unfold State.charge
  split
  · exact s.setup_setBudget c _ rfl
  · rfl

/-- A forwarding moves a pointer and leaves the rest of the setup (R107, R109). -/
theorem State.setup_forwardHead (s : State) (c : ClassId) (e : EntryId) (r : HoldRecord) (k : SlotId) :
    (s.forwardHead c e r k).setup = s.setup := by
  simp only [State.forwardHead, State.setup_noteBudgetWaits, State.setup_offerHold, State.setup_countClass,
    State.setup_send, State.setup_removeHead, State.setup_charge]
  rfl

theorem State.setup_forwardChoice (s : State) :
    s.forwardChoice.setup = { s.setup with pointers := s.forwardChoice.arbiter.pointers } := by
  have hpointers : s.forwardChoice.arbiter.pointers = s.forwardChoice.setup.pointers := rfl
  rw [hpointers]
  rcases s.forwardChoice_cases with h | ⟨c, e, r, k, -, -, -, h⟩ <;> rw [h]
  rw [State.setup_forwardHead]
  rfl

/-- The commands that may write the class map: the writes of the shadow bank and of the default class, MAP_SWAP
and DEFAULTS, and what may carry them (R74). -/
def remaps : Instr → Bool
  | .shadowEntryWrite _ _ | .defaultClassWrite _ | .mapSwap _ | .defaults _ | .windowWrite _
  | .unknownCommandCode _ _ => true
  | _ => false

/-- The commands but a period boundary that may change active settings: CLASS_APPLY, DEFAULTS, and what may
carry them (R77). -/
def applies : Instr → Bool
  | .classApply _ | .defaults _ | .windowWrite _ | .unknownCommandCode _ _ => true
  | _ => false

theorem cases_of_remaps {c : Instr} (h : remaps c = true) :
    (∃ (i : MapIndex) (m : MatchEntry), c = .shadowEntryWrite i m)
      ∨ (∃ b : Byte, c = .defaultClassWrite b ∨ c = .mapSwap b ∨ c = .defaults b ∨ c = .windowWrite b)
      ∨ ∃ code b : Byte, c = .unknownCommandCode code b := by
  unfold remaps at h
  split at h
  · exact .inl ⟨_, _, rfl⟩
  · exact .inr (.inl ⟨_, .inl rfl⟩)
  · exact .inr (.inl ⟨_, .inr (.inl rfl)⟩)
  · exact .inr (.inl ⟨_, .inr (.inr (.inl rfl))⟩)
  · exact .inr (.inl ⟨_, .inr (.inr (.inr rfl))⟩)
  · exact .inr (.inr ⟨_, _, rfl⟩)
  · cases h

theorem cases_of_applies {c : Instr} (h : applies c = true) :
    (∃ b : Byte, c = .classApply b ∨ c = .defaults b ∨ c = .windowWrite b)
      ∨ ∃ code b : Byte, c = .unknownCommandCode code b := by
  unfold applies at h
  split at h
  · exact .inl ⟨_, .inl rfl⟩
  · exact .inl ⟨_, .inr (.inl rfl)⟩
  · exact .inl ⟨_, .inr (.inr rfl)⟩
  · exact .inr ⟨_, _, rfl⟩
  · cases h

theorem setupKept_of_whenRunning {s t : State} {f : State → State} {remaps applies : Bool}
    (h : (.next (s.whenRunning f) : Host.Outcome State Fault Refusal) = .next t)
    (hf : s.SetupKept remaps applies (f s)) : s.SetupKept remaps applies t :=
  of_whenRunning (s.SetupKept remaps applies) h (.refl s) hf

theorem quietSetup_of_whenRunning {s t : State} {f : State → State} {remaps applies : Bool}
    (h : (.next (s.whenRunning f) : Host.Outcome State Fault Refusal) = .next t)
    (hf : (f s).setup = s.setup) : s.SetupKept remaps applies t :=
  setupKept_of_whenRunning h (.of_setup_eq hf)

/-- The commands at which more of the setup may change: the resets, a period boundary and a choice of the
arbiter. -/
def turnsSetup : Instr → Bool
  | .powerOnReset | .resetNAssertion _ | .periodBoundary _ | .forwarding => true
  | _ => false

theorem exec_setupKept {c : Instr} {s t : State} (h : exec c s = .next t) (hc : turnsSetup c = false) :
    s.SetupKept (remaps c) (applies c) t := by
  cases c
  case resetEnd straps =>
    cases h
    split
    · exact .refl s
    all_goals exact .of_setup_eq rfl
  case fabricLinkUp => exact quietSetup_of_whenRunning h s.setup_fabricLinkUp
  case fabricLinkDown => exact quietSetup_of_whenRunning h s.setup_fabricLinkDown
  case memoryLinkUp => exact quietSetup_of_whenRunning h s.setup_memoryLinkUp
  case memoryLinkDown => exact quietSetup_of_whenRunning h s.setup_memoryLinkDown
  case creditGrant m => exact quietSetup_of_whenRunning h (s.setup_creditGrant _)
  case creditReturn m => exact quietSetup_of_whenRunning h (s.setup_creditReturn _)
  case fabricRequestArrival req => exact quietSetup_of_whenRunning h (s.setup_arrive req)
  case placementRetry => exact quietSetup_of_whenRunning h s.setup_retryPlacement
  case intakeStall => exact quietSetup_of_whenRunning h s.setup_reportStall
  case deadlineExpiry slot => exact quietSetup_of_whenRunning h (s.setup_expireSlot slot)
  case memoryResponseTaken resp => exact quietSetup_of_whenRunning h (s.setup_takeResponse resp)
  case matchResponse =>
    refine quietSetup_of_whenRunning h ?_
    split
    · exact s.setup_matchWith _
    all_goals rfl
  case quiesceCompletion => exact quietSetup_of_whenRunning h s.setup_completeQuiesce
  case realResponseLeaves => exact quietSetup_of_whenRunning h s.setup_realLeaves
  case answerLeaves => exact quietSetup_of_whenRunning h s.setup_answerLeaves
  case autoSnapshotExpiry =>
    refine quietSetup_of_whenRunning h ?_
    split
    · exact s.setup_autoExpiry
    · rfl
  case i2cAddress address direction =>
    exact quietSetup_of_whenRunning h (s.setup_i2cAddress address direction)
  case offsetWrite high low => exact quietSetup_of_whenRunning h (s.setup_offsetWrite high low)
  case windowWrite byte => exact setupKept_of_whenRunning h (s.windowWrite_setupKept byte)
  case fieldLatch =>
    refine quietSetup_of_whenRunning h ?_
    split
    · exact s.setup_sendAt _
    all_goals rfl
  case incidentHeadLatch => exact quietSetup_of_whenRunning h (s.setup_sendAt _)
  case incidentHeadRemove => exact quietSetup_of_whenRunning h (s.setup_sendAt _)
  case stagedSettingWrite cls field value =>
    exact quietSetup_of_whenRunning h (s.setup_writeStaged cls field value)
  case shadowEntryWrite index value =>
    exact setupKept_of_whenRunning h (s.writeShadow_setupKept index value)
  case defaultClassWrite value => exact setupKept_of_whenRunning h (.of_map rfl)
  case stallLimitWrite value => exact quietSetup_of_whenRunning h (State.setup_reportStall _)
  case histogramBoundariesWrite values =>
    exact quietSetup_of_whenRunning h (s.setup_writeBoundaries values)
  case quiesce b => exact setupKept_of_whenRunning h (s.writeCommand_setupKept 1 b)
  case resume b => exact setupKept_of_whenRunning h (s.writeCommand_setupKept 2 b)
  case mapSwap b => exact setupKept_of_whenRunning h (s.writeCommand_setupKept 3 b)
  case classCommit b => exact setupKept_of_whenRunning h (s.writeCommand_setupKept 4 b)
  case classApply b => exact setupKept_of_whenRunning h (s.writeCommand_setupKept 5 b)
  case classDiscard b => exact setupKept_of_whenRunning h (s.writeCommand_setupKept 6 b)
  case purge b => exact setupKept_of_whenRunning h (s.writeCommand_setupKept 7 b)
  case snapshot b => exact setupKept_of_whenRunning h (s.writeCommand_setupKept 8 b)
  case snapshotRelease b => exact setupKept_of_whenRunning h (s.writeCommand_setupKept 9 b)
  case statsClear b => exact setupKept_of_whenRunning h (s.writeCommand_setupKept 10 b)
  case incidentsClear b => exact setupKept_of_whenRunning h (s.writeCommand_setupKept 11 b)
  case defaults b => exact setupKept_of_whenRunning h (s.writeCommand_setupKept 12 b)
  case unknownCommandCode code b =>
    exact setupKept_of_whenRunning h (s.writeCommand_setupKept code b).weaken
  case sendCompletion | transferEnd | autoSnapshotIntervalWrite | alertFlagsWrite | alertEnablesWrite
      | timeCountAdvance =>
    exact quietSetup_of_whenRunning h rfl
  all_goals simp [turnsSetup] at hc

/-- A period boundary changes its own class's settings only (R85). -/
theorem periodBoundary_setupKept {c : ClassId} {s t : State} (h : exec (.periodBoundary c) s = .next t) :
    s.SetupKept false true t ∧ ∀ n : ClassId, n ≠ c → t.budget[n].active = s.budget[n].active := by
  refine of_whenRunning (fun u => s.SetupKept false true u
    ∧ ∀ n : ClassId, n ≠ c → u.budget[n].active = s.budget[n].active) h ⟨.refl s, fun _ _ => rfl⟩ ?_
  split
  · exact s.takeBoundary_setupKept c false
  · exact ⟨.refl s, fun _ _ => rfl⟩

theorem forwarding_setup {s t : State} (h : exec .forwarding s = .next t) :
    t.setup = { s.setup with pointers := t.arbiter.pointers } :=
  of_whenRunning (fun u => u.setup = { s.setup with pointers := u.arbiter.pointers }) h rfl
    s.setup_forwardChoice

/-- Settles O21: the setup of a state changes only at the commands named. -/
theorem configurationKeptOtherwise : Obligations.ConfigurationKeptOtherwise := by
  intro c s t h
  cases hc : turnsSetup c with
  | false =>
    obtain ⟨-, hpointers, hmap, hactive⟩ := exec_setupKept h hc
    refine ⟨fun hne => ?_, fun n hne => ?_, fun hne => absurd hpointers hne⟩
    · cases hr : remaps c with
      | false => exact absurd (hmap hr) hne
      | true => exact .inr (cases_of_remaps hr)
    · cases ha : applies c with
      | false => exact absurd (hactive ha n) hne
      | true => exact .inr (.inr (cases_of_applies ha))
  | true =>
    cases c
    case powerOnReset => exact ⟨fun _ => .inl rfl, fun _ _ => .inl rfl, fun _ => .inl rfl⟩
    case resetNAssertion lowNs => exact ⟨fun _ => .inl rfl, fun _ _ => .inl rfl, fun _ => .inl rfl⟩
    case periodBoundary m =>
      obtain ⟨⟨-, hpointers, hmap, -⟩, hothers⟩ := periodBoundary_setupKept h
      refine ⟨fun hne => absurd (hmap rfl) hne, fun n hne => .inr (.inl ?_),
        fun hne => absurd hpointers hne⟩
      by_contra hnm
      exact hne (hothers n fun hn => hnm (hn ▸ rfl))
    case forwarding =>
      have hs := forwarding_setup h
      exact ⟨fun hne => absurd (congrArg Setup.map hs) hne,
        fun n hne => absurd (congrArg (fun x => x.active n) hs) hne, fun _ => .inr rfl⟩
    all_goals simp [turnsSetup] at hc

/-! ## A step (R62, R110, R125) -/

/-- No command touches the queue of commands that wait. -/
theorem exec_pending {c : Instr} {s t : State} (h : exec c s = .next t) : t.pending = s.pending := by
  cases hc : turnsSetup c with
  | false => exact (exec_setupKept h hc).pending
  | true =>
    cases c
    case powerOnReset => cases h; rfl
    case resetNAssertion lowNs =>
      simp only [exec, execResetNAssertion] at h
      split at h
      · cases h; rfl
      · exact of_whenRunning (fun u => u.pending = s.pending) h rfl rfl
    case periodBoundary m => exact (periodBoundary_setupKept h).1.pending
    case forwarding => exact congrArg Setup.pending (forwarding_setup h)
    all_goals simp [turnsSetup] at hc

/-- Every command ends in a next state. -/
theorem exec_next (c : Instr) (s : State) : ∃ t : State, exec c s = .next t := by
  cases c
  case resetNAssertion lowNs =>
    simp only [exec, execResetNAssertion]
    split <;> exact ⟨_, rfl⟩
  all_goals exact ⟨_, rfl⟩

/-- Settles O1: the front command is taken, and no command touches the rest. -/
theorem stepRunsFrontCommand : Obligations.StepRunsFrontCommand := by
  intro s c rest
  refine ⟨fun h => ?_, fun h => by rw [step, h]⟩
  have hstep : step s = exec c { s with pending := rest } := by rw [step, h]
  obtain ⟨t, ht⟩ := exec_next c { s with pending := rest }
  exact ⟨hstep, t, hstep.trans ht, exec_pending ht⟩

end Sys2Proof.Machine


namespace Sys2Proof.Machine

set_option Elab.async false

/-! ## Counting open obligations (R60, R61) -/

theorem toList_eq_map_finRange {α : Type} {n : Nat} (v : Vector α n) :
    v.toList = (List.finRange n).map (fun i => v[i]) :=
  List.ext_getElem (by simp) (by simp)

/-- Where each element that counts in `w` counts in `v` too, `w` counts no more. -/
theorem countP_le_of_forall {α : Type} {n : Nat} {v w : Vector α n} {p : α → Bool}
    (h : ∀ i : Fin n, p w[i] = true → p v[i] = true) : w.toList.countP p ≤ v.toList.countP p := by
  rw [toList_eq_map_finRange, toList_eq_map_finRange, List.countP_map, List.countP_map]
  exact List.countP_mono_left fun i _ => h i

/-- Replacing one element moves a count by what the old and the new element count for. -/
theorem countP_set_add {α : Type} {n : Nat} (v : Vector α n) (i : Fin n) (x : α) (p : α → Bool) :
    (v.set i x).toList.countP p + (p v[i]).toNat = v.toList.countP p + (p x).toNat := by
  have hif : ∀ b : Bool, (if b = true then 1 else 0) = b.toNat := by decide
  have hle : (p v[i]).toNat ≤ v.toList.countP p := by
    cases h : p v[i] with
    | false => exact Nat.zero_le _
    | true => exact List.countP_pos_iff.mpr ⟨v[i], by simp, h⟩
  rw [Vector.toList_set, List.countP_set (by simp), hif, hif]
  simp only [Vector.getElem_toList, Fin.getElem_fin] at hle ⊢
  omega

/-- No element counts exactly where the count is 0. -/
theorem countP_toList_eq_zero {α : Type} {n : Nat} {v : Vector α n} {p : α → Bool} :
    v.toList.countP p = 0 ↔ ∀ i : Fin n, p v[i] = false := by
  rw [toList_eq_map_finRange, List.countP_map, List.countP_eq_zero]
  simp

/-- A matched response holds its pair's obligation; without one the register holds none (R60). -/
theorem ReturnRegister.hasPair_of_not_matched {x : ReturnRegister} (h : x.isMatched = false)
    (source : BitVec 6) (tag : BitVec 8) : x.hasPair source tag = false := by
  cases x with
  | matched r => cases h
  | empty => rfl
  | unmatched resp => rfl

theorem State.openObligations_eq_zero {s : State} {source : BitVec 6} {tag : BitVec 8} :
    s.openObligations source tag = 0 ↔ s.intake.register.hasPair source tag = false
      ∧ (∀ e : EntryId, s.pool.entries[e].hasPair source tag = false)
      ∧ (∀ k : SlotId, s.transit.slots[k].state.hasPair source tag = false)
      ∧ s.ret.register.hasPair source tag = false := by
  simp only [State.openObligations, Nat.add_eq_zero_iff, countP_toList_eq_zero, Bool.toNat_eq_zero,
    and_assoc]

/-- A source and tag have no more open obligations where each owner that holds one held it before. -/
theorem State.openObligations_le {s t : State} {source : BitVec 6} {tag : BitVec 8}
    (hintake : t.intake.register.hasPair source tag = true → s.intake.register.hasPair source tag = true)
    (hentry : ∀ e : EntryId, t.pool.entries[e].hasPair source tag = true →
      s.pool.entries[e].hasPair source tag = true)
    (hslot : ∀ k : SlotId, t.transit.slots[k].state.hasPair source tag = true →
      s.transit.slots[k].state.hasPair source tag = true)
    (hret : t.ret.register.hasPair source tag = true → s.ret.register.hasPair source tag = true) :
    t.openObligations source tag ≤ s.openObligations source tag := by
  have toNat_le : ∀ {a b : Bool}, (a = true → b = true) → a.toNat ≤ b.toNat := by decide
  exact Nat.add_le_add (Nat.add_le_add (Nat.add_le_add (toNat_le hintake) (countP_le_of_forall hentry))
    (countP_le_of_forall (p := fun k : Slot => k.state.hasPair source tag) hslot)) (toNat_le hret)

/-- The obligations depend on which owners hold the pair only. -/
theorem State.openObligations_congr {s t : State} {source : BitVec 6} {tag : BitVec 8}
    (hintake : t.intake.register.hasPair source tag = s.intake.register.hasPair source tag)
    (hentry : ∀ e : EntryId, t.pool.entries[e].hasPair source tag = s.pool.entries[e].hasPair source tag)
    (hslot : ∀ k : SlotId, t.transit.slots[k].state.hasPair source tag
      = s.transit.slots[k].state.hasPair source tag)
    (hret : t.ret.register.hasPair source tag = s.ret.register.hasPair source tag) :
    t.openObligations source tag = s.openObligations source tag :=
  Nat.le_antisymm
    (State.openObligations_le (fun h => hintake ▸ h) (fun e h => hentry e ▸ h) (fun k h => hslot k ▸ h)
      (fun h => hret ▸ h))
    (State.openObligations_le (fun h => hintake ▸ h) (fun e h => hentry e ▸ h) (fun k h => hslot k ▸ h)
      (fun h => hret ▸ h))

/-! ### What each update makes of the count -/

section
variable (source : BitVec 6) (tag : BitVec 8)

/-- The obligations are read off the ledger. -/
theorem State.openObligations_of_ledger_eq {s t : State} (h : t.ledger = s.ledger) :
    t.openObligations source tag = s.openObligations source tag := by
  have hregister : t.intake.register = s.intake.register := congrArg Ledger.register h
  have hslots : t.transit.slots = s.transit.slots := congrArg Ledger.slots h
  have hret : t.ret = s.ret := congrArg Ledger.ret h
  refine State.openObligations_congr (by rw [hregister]) (fun e => ?_) (fun k => by rw [hslots])
    (by rw [hret])
  rw [← HoldEntry.unflagged_hasPair, State.entry_of_ledger_eq h, HoldEntry.unflagged_hasPair]

@[simp] theorem State.openObligations_chooseOffer (s : State) :
    s.chooseOffer.openObligations source tag = s.openObligations source tag := by
  rw [s.chooseOffer_eq.1]
  rfl

theorem State.openObligations_setIntake (s : State) (x : IntakeState) :
    (s.setIntake x).openObligations source tag + (s.intake.register.hasPair source tag).toNat
      = s.openObligations source tag + (x.hasPair source tag).toNat := by
  simp only [State.openObligations, State.setIntake_intake_register, State.setIntake_pool,
    State.setIntake_transit, State.setIntake_ret]
  omega

theorem State.openObligations_setEntry (s : State) (e : EntryId) (v : HoldEntry) :
    (s.setEntry e v).openObligations source tag + (s.pool.entries[e].hasPair source tag).toNat
      = s.openObligations source tag + (v.hasPair source tag).toNat := by
  have h := countP_set_add s.pool.entries e v (HoldEntry.hasPair source tag)
  simp only [State.openObligations, State.setEntry_intake, State.setEntry_pool_entries,
    State.setEntry_transit, State.setEntry_ret]
  omega

/-- What an update of one slot makes of the obligations, whatever it makes of the epoch. -/
theorem State.openObligations_setSlot (s : State) (k : SlotId) (v : Slot) :
    { s with transit.slots := s.transit.slots.set k v }.openObligations source tag
        + (s.transit.slots[k].state.hasPair source tag).toNat
      = s.openObligations source tag + (v.state.hasPair source tag).toNat := by
  have h := countP_set_add s.transit.slots k v (fun k : Slot => k.state.hasPair source tag)
  simp only [State.openObligations]
  omega

theorem State.openObligations_setSlotState (s : State) (k : SlotId) (v : SlotState) :
    (s.setSlotState k v).openObligations source tag
        + (s.transit.slots[k].state.hasPair source tag).toNat
      = s.openObligations source tag + (v.hasPair source tag).toNat :=
  s.openObligations_setSlot source tag k { s.transit.slots[k] with state := v }

theorem State.openObligations_setRegister (s : State) (x : ReturnRegister) :
    { s with ret.register := x }.openObligations source tag + (s.ret.register.hasPair source tag).toNat
      = s.openObligations source tag + (x.hasPair source tag).toNat := by
  simp only [State.openObligations]
  omega

end

/-! ## No event but an arrival opens an obligation -/

/-- From `s` to `t` no source and tag comes to have more open obligations. -/
def State.NoneOpened (s t : State) : Prop :=
  ∀ (source : BitVec 6) (tag : BitVec 8), t.openObligations source tag ≤ s.openObligations source tag

theorem State.NoneOpened.refl (s : State) : s.NoneOpened s := fun _ _ => Nat.le_refl _

theorem State.NoneOpened.trans {s t u : State} (h : s.NoneOpened t) (h' : t.NoneOpened u) :
    s.NoneOpened u := fun source tag => (h' source tag).trans (h source tag)

theorem State.NoneOpened.of_ledger_eq {s t : State} (h : t.ledger = s.ledger) : s.NoneOpened t :=
  fun source tag => Nat.le_of_eq (State.openObligations_of_ledger_eq source tag h)

theorem State.NoneOpened.chooseOffer {s t : State} (h : s.NoneOpened t) : s.NoneOpened t.chooseOffer :=
  fun source tag => by rw [State.openObligations_chooseOffer]; exact h source tag

/-- With the intake, the pool, the slots and the register as a reset leaves them, nothing is open. -/
theorem State.NoneOpened.of_reset (s : State) {t : State} (hintake : t.intake = State.reset.intake)
    (hpool : t.pool = State.reset.pool) (htransit : t.transit = State.reset.transit)
    (hret : t.ret = State.reset.ret) : s.NoneOpened t := by
  intro source tag
  refine State.openObligations_le (fun h => ?_) (fun e h => ?_) (fun k h => ?_) (fun h => ?_)
  · rw [hintake] at h
    cases h
  · rw [hpool, reset_entry] at h
    cases h
  · rw [htransit, reset_slot] at h
    cases h
  · rw [hret] at h
    cases h

/-! ### The intake and the pool -/

/-- A placement opens its own pair's obligation and no other (R60). -/
theorem State.Placed.openObligations {s t : State} {e : EntryId} {r : HoldRecord} (h : s.Placed e r t)
    (he : s.pool.entries[e] = .free) (source : BitVec 6) (tag : BitVec 8) :
    t.openObligations source tag
      = s.openObligations source tag + (decide (r.source = source ∧ r.tag = tag)).toNat := by
  have hset := s.openObligations_setEntry source tag e (.queued r)
  rw [he] at hset
  refine Eq.trans (State.openObligations_congr (by rw [h.frame]; rfl) (fun i => ?_)
    (fun k => by rw [h.frame]; rfl) (by rw [h.frame]; rfl)) hset
  rw [State.setEntry_pool_entries, entries_set]
  split
  · rename_i hi
    obtain ⟨flag, hflag⟩ := h.entry
    rw [hi, hflag]
    rfl
  · rename_i hi
    rw [← HoldEntry.unflagged_hasPair, h.others i hi, HoldEntry.unflagged_hasPair]

/-- What the pool takes opens its own pair's obligation. -/
theorem State.openObligations_tryPlace {s t : State} {r : HoldRecord} (h : s.tryPlace r = some t)
    (source : BitVec 6) (tag : BitVec 8) : t.openObligations source tag
      = s.openObligations source tag + (decide (r.source = source ∧ r.tag = tag)).toNat := by
  obtain ⟨e, he, hplaced⟩ := State.placed_of_tryPlace h
  exact hplaced.openObligations he source tag

theorem State.intake_of_tryPlace {s t : State} {r : HoldRecord} (h : s.tryPlace r = some t) :
    t.intake = s.intake := by
  obtain ⟨e, -, hplaced⟩ := State.placed_of_tryPlace h
  rw [hplaced.frame]

/-- A retried request hands its obligation from the intake to its entry (R61, R69). -/
theorem State.retryPlacement_noneOpened (s : State) : s.NoneOpened s.retryPlacement := by
  unfold State.retryPlacement
  split
  · rename_i q hq
    split
    · rename_i t ht
      intro source tag
      have hplaced := State.openObligations_tryPlace ht source tag
      have hempty := t.openObligations_setIntake source tag .empty
      have hheld : t.intake.register.hasPair source tag
          = decide (q.toRecord.source = source ∧ q.toRecord.tag = tag) := by
        rw [State.intake_of_tryPlace ht, hq]
        rfl
      have hend : (t.endStall q).openObligations source tag
          = (t.setIntake .empty).openObligations source tag := rfl
      rw [hheld] at hempty
      have hnone : (IntakeState.empty.hasPair source tag).toNat = 0 := rfl
      omega
    · exact .refl s
  all_goals exact .refl s

theorem State.reportStall_noneOpened (s : State) : s.NoneOpened s.reportStall := by
  unfold State.reportStall
  split
  · rename_i q hq
    split
    · have h : s.NoneOpened (s.setIntake (.stalled { q with reported := true })) := fun source tag =>
        State.openObligations_le (fun h => by rw [hq]; exact h) (fun _ h => h) (fun _ h => h) (fun h => h)
      exact h.trans (.of_ledger_eq (State.ledger_raise _ _))
    · exact .refl s
  all_goals exact .refl s

theorem State.takeDiscard_noneOpened (argument : Byte) (n : ClassId) (s : State) :
    s.NoneOpened (s.takeDiscard argument n) := by
  have hframe := State.foldl_cancelEntry_frame s.pool.queues[n] s
  have h : s.NoneOpened (((s.pool.queues[n].foldl State.cancelEntry s).setQueue n []).joinAnswers
      (s.pool.queues[n].map Owner.entry)) := by
    refine fun source tag => State.openObligations_le (fun h => ?_) (fun e h => ?_) (fun k h => ?_)
      (fun h => ?_)
    · rw [hframe] at h; exact h
    · rw [State.joinAnswers_pool, State.setQueue_pool_entries, State.foldl_cancelEntry_entry] at h
      cases he : s.pool.entries[e] with
      | free => rw [he] at h; exact h
      | cancelling r => rw [he] at h; exact h
      | queued r =>
        rw [he] at h
        dsimp only at h
        split at h <;> exact h
    · rw [hframe] at h; exact h
    · rw [hframe] at h; exact h
  unfold State.takeDiscard
  refine (h.trans (.of_ledger_eq ?_)).chooseOffer
  rw [State.ledger_done, State.ledger_noteBudgetWaits, State.ledger_countClass]

/-! ### Slots -/

/-- An event that rewrites every slot opens nothing where no slot comes to hold a pair. -/
theorem State.NoneOpened.mapSlots (s : State) {f : SlotState → SlotState}
    (hf : ∀ (x : SlotState) (source : BitVec 6) (tag : BitVec 8), (f x).hasPair source tag = true →
      x.hasPair source tag = true) : s.NoneOpened (s.mapSlots f) :=
  fun source tag => State.openObligations_le (fun h => h) (fun _ h => h)
    (fun k h => by rw [State.slots_mapSlots] at h; exact hf _ source tag h) (fun h => h)

theorem SlotState.hasPair_of_purge {x : SlotState} {source : BitVec 6} {tag : BitVec 8}
    (h : x.purge.hasPair source tag = true) : x.hasPair source tag = true := by
  unfold SlotState.purge at h
  split at h
  · cases h
  all_goals exact h

theorem SlotState.hasPair_of_memoryDown {x : SlotState} {source : BitVec 6} {tag : BitVec 8}
    (h : x.memoryDown.hasPair source tag = true) : x.hasPair source tag = true := by
  unfold SlotState.memoryDown at h
  split at h
  · exact h
  · exact h
  · exact h
  · cases h
  · exact h

/-- A slot's part of an event: the slot's obligation is the one it held, or none. -/
theorem State.NoneOpened.setSlotState (s : State) (k : SlotId) {v : SlotState}
    (hv : ∀ (source : BitVec 6) (tag : BitVec 8), v.hasPair source tag = true →
      s.transit.slots[k].state.hasPair source tag = true) : s.NoneOpened (s.setSlotState k v) := by
  refine fun source tag => State.openObligations_le (fun h => h) (fun _ h => h) (fun i h => ?_) (fun h => h)
  rw [State.slots_setSlotState] at h
  split at h
  · rename_i hi
    rw [hi]
    exact hv source tag h
  · exact h

theorem State.expire_noneOpened {s : State} {k : SlotId} {r : SlotRecord} {d : Time}
    (hk : s.transit.slots[k].state = .inFlight r (some d) false) : s.NoneOpened (s.expire k r d) := by
  unfold State.expire
  dsimp only
  split
  · have h : s.NoneOpened (s.setSlotState k (.expired r true)) :=
      .setSlotState s k fun source tag h => by rw [hk]; simpa [SlotState.hasPair] using h
    have hjoined : s.NoneOpened ((s.setSlotState k (.expired r true)).joinAnswers [.slot k]) := h
    refine (hjoined.trans (.of_ledger_eq ?_)).chooseOffer
    rw [State.ledger_completeQuiesce, State.ledger_raise]
    rfl
  · have h : s.NoneOpened (s.setSlotState k (.inFlight r (some d) true)) :=
      .setSlotState s k fun source tag h => by rw [hk]; exact h
    exact h.trans (.of_ledger_eq ((State.ledger_raise _ _).trans rfl))

theorem State.expireSlot_noneOpened (s : State) (k : SlotId) : s.NoneOpened (s.expireSlot k) := by
  unfold State.expireSlot
  split
  · rename_i hk
    split
    · exact State.expire_noneOpened hk
    · exact .refl s
  all_goals exact .refl s

/-- A forwarding hands the obligation from the entry to its slot (R61, R109). -/
theorem State.forwardHead_noneOpened {s : State} {c : ClassId} {e : EntryId} {r : HoldRecord} (k : SlotId)
    (he : s.pool.entries[e] = .queued r) : s.NoneOpened (s.forwardHead c e r k) := by
  refine State.NoneOpened.trans (t := (s.allocate k (s.slotRecordFor c r)).removeHead c e) ?_
    (.of_ledger_eq (s.ledger_forwardHead c e r k))
  intro source tag
  have hallocate : (s.allocate k (s.slotRecordFor c r)).openObligations source tag
        + (s.transit.slots[k].state.hasPair source tag).toNat
      = s.openObligations source tag + (decide (r.source = source ∧ r.tag = tag)).toNat :=
    s.openObligations_setSlot source tag k _
  have hfree : ((s.allocate k (s.slotRecordFor c r)).setEntry e .free).openObligations source tag
        + ((HoldEntry.queued r).hasPair source tag).toNat
      = (s.allocate k (s.slotRecordFor c r)).openObligations source tag + 0 := by
    rw [← he]
    exact State.openObligations_setEntry source tag (s.allocate k (s.slotRecordFor c r)) e .free
  have hmap (v : Vector HoldEntry 192) (i : EntryId) :
      (v.map (HoldEntry.dropMember e))[i] = v[i].dropMember e := by simp
  have hremove : ((s.allocate k (s.slotRecordFor c r)).removeHead c e).openObligations source tag
      = ((s.allocate k (s.slotRecordFor c r)).setEntry e .free).openObligations source tag :=
    State.openObligations_congr rfl (fun i => by
      rw [State.removeHead_pool_entries, hmap, HoldEntry.dropMember_hasPair]
      rfl) (fun _ => rfl) rfl
  have hheld : ((HoldEntry.queued r).hasPair source tag) = decide (r.source = source ∧ r.tag = tag) := rfl
  rw [hheld] at hfree
  omega

theorem State.forwardChoice_noneOpened (s : State) : s.NoneOpened s.forwardChoice := by
  rcases s.forwardChoice_cases with h | ⟨c, e, r, k, -, -, he, h⟩ <;> rw [h]
  · exact .refl s
  · exact State.forwardHead_noneOpened (s := s.movePointer c) k he

/-! ### Links -/

theorem State.fabricLinkUp_noneOpened (s : State) : s.NoneOpened s.fabricLinkUp := by
  unfold State.fabricLinkUp
  split
  · have h : s.NoneOpened { s with ret.link := .up } := fun _ _ => Nat.le_refl _
    exact h.trans (.of_ledger_eq (State.ledger_raise _ _))
  · exact .refl s

/-- A fabric link-down dissolves every obligation (R153). -/
theorem State.fabricLinkDown_noneOpened (s : State) : s.NoneOpened s.fabricLinkDown := by
  cases hl : s.ret.link with
  | down => rw [State.fabricLinkDown, hl]; exact .refl s
  | up =>
    refine fun source tag => (Nat.le_of_eq ?_).trans (Nat.zero_le _)
    rw [State.openObligations_of_ledger_eq source tag (State.ledger_fabricLinkDown hl),
      State.openObligations_eq_zero]
    refine ⟨?_, fun e => ?_, fun k => ?_, ReturnRegister.hasPair_of_not_matched
      (ReturnRegister.isMatched_fabricDown _) source tag⟩
    · have := s.dropIntake_register
      simp [this, IntakeState.hasPair]
    · simp [HoldPool.empty, HoldEntry.hasPair, HoldEntry.record?]
    · have := State.slots_mapSlots s.dropIntake SlotState.fabricDown k
      simp only [this]
      rcases SlotState.fabricDown_owesNothing (s.dropIntake.transit.slots[k].state) with h | ⟨r, h⟩ <;>
        rw [h] <;> rfl

theorem State.memoryLinkDown_noneOpened (s : State) : s.NoneOpened s.memoryLinkDown := by
  by_cases hm : s.mem.link = .down
  · rw [State.memoryLinkDown, hm]; exact .refl s
  · obtain ⟨p, heq, hp⟩ := s.memoryLinkDown_joined hm
    rw [heq]
    have h : s.NoneOpened ((s.mapSlots SlotState.memoryDown).joinAnswers s.lostOrder) :=
      State.NoneOpened.mapSlots s fun _ _ _ => SlotState.hasPair_of_memoryDown
    exact (h.trans (.of_ledger_eq hp)).chooseOffer

/-! ### Memory's responses, and what leaves -/

/-- A response handed over takes the obligation from its slot to the return register (R61, R127, R128). -/
theorem State.deliver_noneOpened (s : State) (k : SlotId) (r : SlotRecord) (resp : MemResponse)
    (origin : Origin) (hk : ∀ (source : BitVec 6) (tag : BitVec 8),
      s.transit.slots[k].state.hasPair source tag = decide (r.source = source ∧ r.tag = tag)) :
    s.NoneOpened (s.deliver k r resp origin) := by
  intro source tag
  have hfree := s.openObligations_setSlotState source tag k .free
  have hregister : (s.deliver k r resp origin).openObligations source tag
        + (s.ret.register.hasPair source tag).toNat
      = (s.setSlotState k .free).openObligations source tag
        + ((ReturnRegister.matched (matchedResponse r resp origin)).hasPair source tag).toNat :=
    (s.setSlotState k .free).openObligations_setRegister source tag _
  have hnone : (SlotState.free.hasPair source tag).toNat = 0 := rfl
  have hmatched : ((ReturnRegister.matched (matchedResponse r resp origin)).hasPair source tag)
      = decide (r.source = source ∧ r.tag = tag) := rfl
  rw [hk] at hfree
  rw [hmatched] at hregister
  omega

/-- A register that is emptied holds nothing. -/
theorem State.NoneOpened.emptyRegister (s : State) : s.NoneOpened { s with ret.register := .empty } :=
  fun _ _ => State.openObligations_le (fun h => h) (fun _ h => h) (fun _ h => h) nofun

theorem State.matchWith_noneOpened (s : State) (resp : MemResponse) : s.NoneOpened (s.matchWith resp) := by
  have hstray : s.NoneOpened (s.stray (tagSlot resp.tag) resp) :=
    (State.NoneOpened.emptyRegister s).trans (.of_ledger_eq (s.ledger_stray _ resp))
  have hsupersede (r : SlotRecord) (hk : ∀ (source : BitVec 6) (tag : BitVec 8),
      s.transit.slots[tagSlot resp.tag].state.hasPair source tag
        = decide (r.source = source ∧ r.tag = tag)) :
      s.NoneOpened (s.supersede (tagSlot resp.tag) r resp) := by
    obtain ⟨p, heq, hp⟩ := s.ledger_supersede (tagSlot resp.tag) r resp
    have h : s.NoneOpened ((s.withdrawAnswer (tagSlot resp.tag)).deliver (tagSlot resp.tag) r resp
        .supersede) := State.deliver_noneOpened (s.withdrawAnswer (tagSlot resp.tag)) _ r resp .supersede hk
    rw [heq]
    exact (h.trans (.of_ledger_eq hp)).chooseOffer
  unfold State.matchWith
  dsimp only
  split
  · split
    · rename_i r d overdue hk
      obtain ⟨p, heq, hp⟩ := s.ledger_complete (tagSlot resp.tag) r overdue resp
      rw [heq]
      exact ((s.deliver_noneOpened _ r resp .completion fun _ _ => by rw [hk]; rfl).trans
        (.of_ledger_eq hp)).chooseOffer
    · rename_i hk
      exact hsupersede _ fun _ _ => by rw [hk]; simp [SlotState.hasPair]
    · rename_i hk
      exact hsupersede _ fun _ _ => by rw [hk]; rfl
    · have h : s.NoneOpened (s.setSlotState (tagSlot resp.tag) .free) := .setSlotState s _ nofun
      exact (h.trans (.emptyRegister _)).trans (.of_ledger_eq (s.ledger_absorb _ _))
    · exact hstray
  · exact hstray

theorem State.takeResponse_noneOpened (s : State) (resp : MemResponse) :
    s.NoneOpened (s.takeResponse resp) := by
  unfold State.takeResponse
  split
  · exact fun _ _ => State.openObligations_le (fun h => h) (fun _ h => h) (fun _ h => h) nofun
  · exact .refl s

theorem State.realLeaves_noneOpened (s : State) : s.NoneOpened s.realLeaves := by
  unfold State.realLeaves State.enterTotal
  split
  · rename_i r _ _
    have h : s.NoneOpened { s with ret.register := .empty, ret.channel := .idle, ret.turn := .answer } :=
      fun _ _ => State.openObligations_le (fun h => h) (fun _ h => h) (fun _ h => h) nofun
    refine State.NoneOpened.chooseOffer ?_
    split
    · exact h.trans (.of_ledger_eq rfl)
    · exact h
  · exact .refl s

theorem State.ownerAnswered_noneOpened (s : State) (o : Owner) : s.NoneOpened (s.ownerAnswered o) := by
  unfold State.ownerAnswered
  split
  · split
    · exact fun _ _ => State.openObligations_le nofun (fun _ h => h) (fun _ h => h) (fun h => h)
    all_goals exact .refl s
  · split
    · refine fun _ _ => State.openObligations_le (fun h => h) (fun i h => ?_) (fun _ h => h) (fun h => h)
      rw [State.setEntry_pool_entries, entries_set] at h
      split at h
      · cases h
      · exact h
    all_goals exact .refl s
  · split
    · exact .setSlotState s _ nofun
    · exact .setSlotState s _ nofun
    all_goals exact .refl s

theorem State.answerLeaves_noneOpened (s : State) : s.NoneOpened s.answerLeaves := by
  unfold State.answerLeaves
  split
  · rename_i o rest _ _
    have h : s.NoneOpened { s with ret.answers := rest, ret.channel := .idle, ret.turn := .real } :=
      fun _ _ => Nat.le_refl _
    exact (h.trans (State.ownerAnswered_noneOpened _ o)).chooseOffer
  · exact .refl s

/-! ### Commands and fields -/

theorem State.takeDefaults_noneOpened (s : State) (argument : Byte) :
    s.NoneOpened (s.takeDefaults argument) := by
  unfold State.takeDefaults
  split
  · exact .of_ledger_eq rfl
  · split
    · exact .of_ledger_eq rfl
    · split
      · exact .of_ledger_eq rfl
      · exact State.retryPlacement_noneOpened (s.restoreDefaults.done 12 argument 0)

theorem State.command_noneOpened (s : State) (code argument : Byte) {owner : State → State}
    (h : ∀ t : State, t.NoneOpened (owner t)) : s.NoneOpened (s.command code argument owner) := by
  unfold State.command
  split
  · exact .of_ledger_eq rfl
  · exact h { s with port.commandCode := code, port.commandArgument := argument }

theorem State.classCommand_noneOpened (s : State) (code argument : Byte)
    {owner : ClassId → State → State} (h : ∀ (n : ClassId) (t : State), t.NoneOpened (owner n t)) :
    s.NoneOpened (s.classCommand code argument owner) := by
  refine s.command_noneOpened code argument fun t => ?_
  split
  · exact h _ t
  · exact .of_ledger_eq rfl

theorem State.writeCommand_noneOpened (s : State) (code b : Byte) :
    s.NoneOpened (s.writeCommand code b) := by
  unfold State.writeCommand
  split
  · exact s.command_noneOpened 1 b fun t => .of_ledger_eq (t.ledger_takeQuiesce b)
  · exact s.command_noneOpened 2 b fun t => .of_ledger_eq (t.ledger_takeResume b)
  · exact s.command_noneOpened 3 b fun _ => .of_ledger_eq rfl
  · exact s.classCommand_noneOpened 4 b fun n t => .of_ledger_eq (t.ledger_takeCommit b n)
  · exact s.classCommand_noneOpened 5 b fun n t => .of_ledger_eq (t.ledger_takeApply b n)
  · exact s.classCommand_noneOpened 6 b fun n t => t.takeDiscard_noneOpened b n
  · exact s.command_noneOpened 7 b fun t =>
      State.NoneOpened.mapSlots t fun _ _ _ => SlotState.hasPair_of_purge
  · exact s.command_noneOpened 8 b fun t => .of_ledger_eq (t.ledger_takeSnapshotCommand b)
  · exact s.command_noneOpened 9 b fun t => .of_ledger_eq (t.ledger_takeRelease b)
  · exact s.command_noneOpened 10 b fun _ => .of_ledger_eq rfl
  · exact s.command_noneOpened 11 b fun _ => .of_ledger_eq rfl
  · exact s.command_noneOpened 12 b fun t => t.takeDefaults_noneOpened b
  · exact s.command_noneOpened code b fun _ => .of_ledger_eq rfl

theorem State.takeField_noneOpened (s : State) (f : Field) (bytes : List Byte) :
    s.NoneOpened (s.takeField f bytes) := by
  cases f
  case stallLimit => exact State.reportStall_noneOpened { s with intake.stallLimit := _ }
  case boundaries => exact .of_ledger_eq (s.ledger_writeBoundaries _)
  case command => exact s.writeCommand_noneOpened _ _
  case shadowEntry e => exact .of_ledger_eq (s.ledger_writeShadow e _)
  all_goals exact .of_ledger_eq rfl

theorem State.writeByte_noneOpened (s : State) (f : Field) (i : Nat) (b : Byte) :
    s.NoneOpened (s.writeByte f i b) := by
  unfold State.writeByte
  split
  · split
    · split
      · exact State.takeField_noneOpened (s.setAssembly none) f _
      · exact .of_ledger_eq rfl
    · exact .of_ledger_eq rfl
  · exact .of_ledger_eq rfl

theorem State.windowWrite_noneOpened (s : State) (b : Byte) : s.NoneOpened (s.windowWrite b) := by
  unfold State.windowWrite
  split
  · cases fieldAt s.port.offset with
    | none => exact .of_ledger_eq rfl
    | some p => exact State.writeByte_noneOpened { s with port.ack := true } p.1 p.2 b
  all_goals exact .refl s

/-! ## The arrival, and every command (R58, R60, R61) -/

/-- The owner that a tag check names holds the pair's obligation. -/
def TagOwner.Holds (owner : TagOwner) (s : State) (source : BitVec 6) (tag : BitVec 8) : Prop :=
  match owner with
  | .holdEntry => ∃ e : EntryId, s.pool.entries[e].hasPair source tag = true
  | .slot k => s.transit.slots[k].state.hasPair source tag = true
  | .responseReturn => s.ret.register.hasPair source tag = true

theorem State.any_hasPair {s : State} {source : BitVec 6} {tag : BitVec 8} :
    s.pool.entries.toList.any (HoldEntry.hasPair source tag) = true
      ↔ ∃ e : EntryId, s.pool.entries[e].hasPair source tag = true := by
  rw [toList_eq_map_finRange, List.any_map, List.any_eq_true]
  simp

/-- What a tag check answers: an owner that holds the pair's obligation, or that none of the three kinds of
owner does (R60). -/
theorem State.tagOwner?_correct (s : State) (source : BitVec 6) (tag : BitVec 8) :
    match s.tagOwner? source tag with
    | some owner => owner.Holds s source tag
    | none => (∀ e : EntryId, s.pool.entries[e].hasPair source tag = false)
        ∧ (∀ k : SlotId, s.transit.slots[k].state.hasPair source tag = false)
        ∧ s.ret.register.hasPair source tag = false := by
  unfold State.tagOwner?
  by_cases hentry : s.pool.entries.toList.any (HoldEntry.hasPair source tag) = true
  · rw [if_pos hentry]
    exact State.any_hasPair.mp hentry
  · rw [if_neg hentry]
    have hnone : ∀ e : EntryId, s.pool.entries[e].hasPair source tag = false := fun e =>
      Bool.eq_false_iff.mpr fun he => hentry (State.any_hasPair.mpr ⟨e, he⟩)
    cases hslot : (List.finRange 128).find? (fun k => s.transit.slots[k].state.hasPair source tag) with
    | some k =>
      have hk := List.find?_some hslot
      exact hk
    | none =>
      cases hret : s.ret.register.hasPair source tag with
      | true => exact hret
      | false =>
        exact ⟨hnone, fun k => Bool.eq_false_iff.mpr (List.find?_eq_none.mp hslot k (List.mem_finRange k)),
          rfl⟩

theorem State.holds_of_tagOwner? {s : State} {source : BitVec 6} {tag : BitVec 8} {owner : TagOwner}
    (h : s.tagOwner? source tag = some owner) : owner.Holds s source tag := by
  have hcorrect := s.tagOwner?_correct source tag
  rw [h] at hcorrect
  exact hcorrect

/-- With no request STALLED the tag check finds an owner exactly where an obligation is open (R61). -/
theorem State.tagOwner?_eq_none {s : State} (hr : s.intake.register = .empty) {source : BitVec 6}
    {tag : BitVec 8} : s.tagOwner? source tag = none ↔ s.openObligations source tag = 0 := by
  have hintake : s.intake.register.hasPair source tag = false := by rw [hr]; rfl
  have hcorrect := s.tagOwner?_correct source tag
  rw [State.openObligations_eq_zero]
  constructor
  · intro h
    rw [h] at hcorrect
    exact ⟨hintake, hcorrect⟩
  · rintro ⟨-, hentry, hslot, hret⟩
    cases h : s.tagOwner? source tag with
    | none => rfl
    | some owner =>
      have hholds := State.holds_of_tagOwner? h
      cases owner with
      | holdEntry =>
        obtain ⟨e, he⟩ := hholds
        rw [hentry e] at he
        cases he
      | slot k => cases (hslot k).symm.trans hholds
      | responseReturn => cases hret.symm.trans hholds

/-- A refused request opens no obligation (R60). -/
theorem State.refuseRequest_openObligations {s : State} (hr : s.intake.register = .empty)
    (req : FabricRequest) (owed : RefusalStatus) (count : GlobalCounter) (body : IncidentBody)
    (source : BitVec 6) (tag : BitVec 8) :
    (s.refuseRequest req owed count body).openObligations source tag = s.openObligations source tag := by
  rw [State.refuseRequest, State.openObligations_chooseOffer,
    State.openObligations_of_ledger_eq source tag
      ((State.ledger_raise _ _).trans (State.ledger_countGlobal _ _ _))]
  exact State.openObligations_congr (by rw [hr]; rfl) (fun _ => rfl) (fun _ => rfl) rfl

/-- An accepted request opens its own pair's obligation, in the pool or in the intake (R60, R61). -/
theorem State.acceptRequest_openObligations {s : State} (hr : s.intake.register = .empty)
    (req : FabricRequest) (source : BitVec 6) (tag : BitVec 8) :
    (s.acceptRequest req).openObligations source tag = s.openObligations source tag
      + (decide (req.source = source ∧ req.tag = tag)).toNat := by
  unfold State.acceptRequest
  split
  · exact State.openObligations_tryPlace ‹_› source tag
  · have h := s.openObligations_setIntake source tag (.stalled (s.accepted req))
    rw [hr] at h
    exact h

/-- Everything an arrival can do: nothing, where the offer waits outside, a refusal, or an acceptance (R58). -/
theorem State.arrive_cases (s : State) (req : FabricRequest) : s.arrive req = s
    ∨ (s.intake.register = .empty ∧ ∃ (owed : RefusalStatus) (count : GlobalCounter) (body : IncidentBody),
        s.arrive req = s.refuseRequest req owed count body)
    ∨ (s.intake.register = .empty ∧ malformation req = none ∧ s.tagOwner? req.source req.tag = none
        ∧ s.arrive req = s.acceptRequest req) := by
  unfold State.arrive
  split
  · rename_i hr _
    split
    · exact .inr (.inl ⟨hr, _, _, _, rfl⟩)
    · split
      · exact .inr (.inl ⟨hr, _, _, _, rfl⟩)
      · exact .inr (.inr ⟨hr, ‹_›, ‹_›, rfl⟩)
  · exact .inl rfl

/-- Everything an arrival can open: one obligation, of its own pair, where that had none (R58, R61). -/
theorem State.arrive_opened {s : State} {req : FabricRequest} {source : BitVec 6} {tag : BitVec 8}
    (h : s.openObligations source tag < (s.arrive req).openObligations source tag) :
    s.openObligations source tag = 0 ∧ (s.arrive req).openObligations source tag = 1
      ∧ req.source = source ∧ req.tag = tag ∧ malformation req = none := by
  rcases s.arrive_cases req with harrive | ⟨hr, owed, count, body, harrive⟩ | ⟨hr, hwell, hfree, harrive⟩ <;>
    rw [harrive] at h ⊢
  · exact absurd h (Nat.lt_irrefl _)
  · rw [State.refuseRequest_openObligations hr] at h
    exact absurd h (Nat.lt_irrefl _)
  · rw [State.acceptRequest_openObligations hr] at h ⊢
    by_cases hpair : req.source = source ∧ req.tag = tag
    · obtain ⟨rfl, rfl⟩ := hpair
      have hzero := (State.tagOwner?_eq_none hr).mp hfree
      exact ⟨hzero, by simp [hzero], rfl, rfl, hwell⟩
    · simp [hpair] at h

theorem noneOpened_of_whenRunning {s t : State} {f : State → State}
    (h : (.next (s.whenRunning f) : Host.Outcome State Fault Refusal) = .next t)
    (hf : s.NoneOpened (f s)) : s.NoneOpened t :=
  of_whenRunning s.NoneOpened h (.refl s) hf

/-- No command but an arrival opens an obligation (R61). -/
theorem exec_noneOpened {c : Instr} {s t : State} (h : exec c s = .next t)
    (hc : ∀ req : FabricRequest, c ≠ .fabricRequestArrival req) : s.NoneOpened t := by
  cases c
  case powerOnReset => cases h; exact .of_reset s rfl rfl rfl rfl
  case resetNAssertion lowNs =>
    simp only [exec, execResetNAssertion] at h
    split at h
    · cases h; exact .refl s
    · exact noneOpened_of_whenRunning h (.of_reset s rfl rfl rfl rfl)
  case resetEnd straps =>
    cases h
    split
    · exact .refl s
    all_goals exact .of_ledger_eq rfl
  case fabricLinkUp => exact noneOpened_of_whenRunning h s.fabricLinkUp_noneOpened
  case fabricLinkDown => exact noneOpened_of_whenRunning h s.fabricLinkDown_noneOpened
  case memoryLinkUp => exact noneOpened_of_whenRunning h (.of_ledger_eq s.ledger_memoryLinkUp)
  case memoryLinkDown => exact noneOpened_of_whenRunning h s.memoryLinkDown_noneOpened
  case creditGrant m => exact noneOpened_of_whenRunning h (.of_ledger_eq (s.ledger_creditGrant _))
  case creditReturn m => exact noneOpened_of_whenRunning h (.of_ledger_eq (s.ledger_creditReturn _))
  case fabricRequestArrival req => exact absurd rfl (hc req)
  case placementRetry => exact noneOpened_of_whenRunning h s.retryPlacement_noneOpened
  case intakeStall => exact noneOpened_of_whenRunning h s.reportStall_noneOpened
  case periodBoundary cls =>
    refine noneOpened_of_whenRunning h ?_
    split
    · exact .of_ledger_eq (s.ledger_takeBoundary cls false)
    · exact .refl s
  case forwarding => exact noneOpened_of_whenRunning h s.forwardChoice_noneOpened
  case deadlineExpiry slot => exact noneOpened_of_whenRunning h (s.expireSlot_noneOpened slot)
  case memoryResponseTaken resp => exact noneOpened_of_whenRunning h (s.takeResponse_noneOpened resp)
  case matchResponse =>
    refine noneOpened_of_whenRunning h ?_
    split
    · exact s.matchWith_noneOpened _
    all_goals exact .refl s
  case quiesceCompletion => exact noneOpened_of_whenRunning h (.of_ledger_eq s.ledger_completeQuiesce)
  case realResponseLeaves => exact noneOpened_of_whenRunning h s.realLeaves_noneOpened
  case answerLeaves => exact noneOpened_of_whenRunning h s.answerLeaves_noneOpened
  case autoSnapshotExpiry =>
    refine noneOpened_of_whenRunning h ?_
    split
    · exact .of_ledger_eq s.ledger_autoExpiry
    · exact .refl s
  case i2cAddress address direction =>
    exact noneOpened_of_whenRunning h (.of_ledger_eq (s.ledger_i2cAddress address direction))
  case offsetWrite high low =>
    exact noneOpened_of_whenRunning h (.of_ledger_eq (s.ledger_offsetWrite high low))
  case windowWrite byte => exact noneOpened_of_whenRunning h (s.windowWrite_noneOpened byte)
  case fieldLatch =>
    refine noneOpened_of_whenRunning h ?_
    split
    · exact .of_ledger_eq (s.ledger_sendAt _)
    all_goals exact .refl s
  case incidentHeadLatch => exact noneOpened_of_whenRunning h (.of_ledger_eq (s.ledger_sendAt _))
  case incidentHeadRemove => exact noneOpened_of_whenRunning h (.of_ledger_eq (s.ledger_sendAt _))
  case shadowEntryWrite index value =>
    exact noneOpened_of_whenRunning h (.of_ledger_eq (s.ledger_writeShadow index value))
  case stallLimitWrite value =>
    exact noneOpened_of_whenRunning h (State.reportStall_noneOpened { s with intake.stallLimit := value })
  case histogramBoundariesWrite values =>
    exact noneOpened_of_whenRunning h (.of_ledger_eq (s.ledger_writeBoundaries values))
  case quiesce b => exact noneOpened_of_whenRunning h (s.writeCommand_noneOpened 1 b)
  case resume b => exact noneOpened_of_whenRunning h (s.writeCommand_noneOpened 2 b)
  case mapSwap b => exact noneOpened_of_whenRunning h (s.writeCommand_noneOpened 3 b)
  case classCommit b => exact noneOpened_of_whenRunning h (s.writeCommand_noneOpened 4 b)
  case classApply b => exact noneOpened_of_whenRunning h (s.writeCommand_noneOpened 5 b)
  case classDiscard b => exact noneOpened_of_whenRunning h (s.writeCommand_noneOpened 6 b)
  case purge b => exact noneOpened_of_whenRunning h (s.writeCommand_noneOpened 7 b)
  case snapshot b => exact noneOpened_of_whenRunning h (s.writeCommand_noneOpened 8 b)
  case snapshotRelease b => exact noneOpened_of_whenRunning h (s.writeCommand_noneOpened 9 b)
  case statsClear b => exact noneOpened_of_whenRunning h (s.writeCommand_noneOpened 10 b)
  case incidentsClear b => exact noneOpened_of_whenRunning h (s.writeCommand_noneOpened 11 b)
  case defaults b => exact noneOpened_of_whenRunning h (s.writeCommand_noneOpened 12 b)
  case unknownCommandCode code b => exact noneOpened_of_whenRunning h (s.writeCommand_noneOpened code b)
  case sendCompletion | transferEnd | stagedSettingWrite | defaultClassWrite
      | autoSnapshotIntervalWrite | alertFlagsWrite | alertEnablesWrite | timeCountAdvance =>
    exact noneOpened_of_whenRunning h fun _ _ => Nat.le_refl _

/-- Where a command opens an obligation, it is an arrival of that pair, well-formed, and none was open (R61). -/
theorem exec_opened {c : Instr} {s t : State} {source : BitVec 6} {tag : BitVec 8}
    (h : exec c s = .next t) (ho : s.openObligations source tag < t.openObligations source tag) :
    s.openObligations source tag = 0 ∧ t.openObligations source tag = 1
      ∧ ∃ req : FabricRequest, c = .fabricRequestArrival req ∧ req.source = source ∧ req.tag = tag
        ∧ malformation req = none := by
  by_cases hc : ∃ req : FabricRequest, c = .fabricRequestArrival req
  · obtain ⟨req, rfl⟩ := hc
    rcases eq_or_eq_of_whenRunning h with rfl | rfl
    · exact absurd ho (Nat.lt_irrefl _)
    · obtain ⟨hzero, hone, hsource, htag, hwell⟩ := State.arrive_opened ho
      exact ⟨hzero, hone, req, rfl, hsource, htag, hwell⟩
  · have hnone := exec_noneOpened h fun req hreq => hc ⟨req, hreq⟩
    exact absurd ho (Nat.not_lt.mpr (hnone source tag))

/-- Settles O11: what a command opens is the only open obligation of its pair. -/
theorem oneObligationPerPair : Obligations.OneObligationPerPair := by
  refine ⟨fun s t hs h source tag => ?_, fun c s t source tag => exec_opened⟩
  unfold step at h
  split at h
  · cases h
    exact hs source tag
  · rename_i c rest _
    by_cases ho : s.openObligations source tag < t.openObligations source tag
    · obtain ⟨-, hone, -⟩ := exec_opened (s := { s with pending := rest }) h ho
      exact Nat.le_of_eq hone
    · exact (Nat.not_lt.mp ho).trans (hs source tag)

end Sys2Proof.Machine


namespace Sys2Proof.Machine

set_option Elab.async false

/-! ## The class of a request (R65) -/

theorem entryMatches_iff (m : MatchEntry) (source : BitVec 6) (page : BitVec 28) (kind : Kind) :
    entryMatches m source page kind = true ↔ entryCovers m source page kind := by
  simp only [entryMatches, entryCovers, Bool.and_eq_true, decide_eq_true_eq, BitVec.le_def, and_assoc]
  cases kind <;> rfl

/-- The class is decided by the number of the lowest matching entry, if any. -/
theorem State.classify_eq (s : State) (source : BitVec 6) (page : BitVec 28) (kind : Kind) :
    s.classify source page kind
      = match (List.finRange 24).find? (fun i => entryMatches s.map.activeBank[i] source page kind) with
        | some i => s.map.activeBank[i].cls
        | none => s.map.defaultClass := by
  rw [State.classify, toList_eq_map_finRange, List.find?_map]
  simp only [Function.comp_def]
  cases (List.finRange 24).find? (fun i => entryMatches s.map.activeBank[i] source page kind) <;> rfl

/-- Settles O29: the first entry found is the lowest-numbered. -/
theorem lowestMatchClassifies : Obligations.LowestMatchClassifies := by
  intro s source page kind
  refine ⟨fun i hi hlower => ?_, fun hnone => ?_⟩
  · have hfind : (List.finRange 24).find? (fun i => entryMatches s.map.activeBank[i] source page kind)
        = some i := by
      rw [find?_finRange_eq_some]
      exact ⟨(entryMatches_iff _ _ _ _).mpr hi, fun j hj =>
        Bool.eq_false_iff.mpr fun h => hlower j hj ((entryMatches_iff _ _ _ _).mp h)⟩
    rw [State.classify_eq, hfind]
  · have hfind : (List.finRange 24).find? (fun i => entryMatches s.map.activeBank[i] source page kind)
        = none :=
      List.find?_eq_none.mpr fun i _ h => hnone i ((entryMatches_iff _ _ _ _).mp h)
    rw [State.classify_eq, hfind]

/-! ## Refusals (R59, R63) -/

/-- Everything a refusal does: the intake is REJECTING and owes, the refusal is counted and reported, and the
channel makes its choice (R59, R63, R150). -/
theorem State.refuseRequest_eq (s : State) (req : FabricRequest) (owed : RefusalStatus)
    (count : GlobalCounter) (body : IncidentBody) :
    s.refuseRequest req owed count body = { s with
      intake.register := .rejecting req.source req.tag owed
      ret.answers := s.ret.answers ++ [.intake]
      ret.channel := (s.refuseRequest req owed count body).channelAfter s.ret.channel
      stats.globals := s.stats.globals.bump count 1
      alerts.saturation := s.alerts.saturation || saturates (s.stats.globals.get count) 1
      incidents := (s.raise body).incidents } := by
  have hp := State.raise_eq_of_same_queue (s := ((s.setIntake (.rejecting req.source req.tag
    owed)).joinAnswers [.intake]).countGlobal count 1) (t := s) rfl rfl body
  rw [State.refuseRequest]
  generalize (((s.setIntake (.rejecting req.source req.tag owed)).joinAnswers [.intake]).countGlobal
    count 1).raise body = p at hp ⊢
  have hchannel : p.chooseOffer.ret.channel = p.chooseOffer.channelAfter s.ret.channel :=
    p.chooseOffer_ret_channel s.ret.channel (by rw [hp]; rfl)
  have hframe := p.chooseOffer_eq.1
  rw [hchannel] at hframe
  generalize p.chooseOffer.channelAfter s.ret.channel = channel at hframe ⊢
  rw [hframe, hp]
  rfl

theorem State.arrive_of_malformed {s : State} {req : FabricRequest} {reason : Nat}
    (hr : s.intake.register = .empty) (hl : s.ret.link = .up) (hm : malformation req = some reason) :
    s.arrive req = s.refuseRequest req .malformed .malformed (malformedIncident req reason) := by
  simp only [State.arrive, hr, hl, hm]

theorem State.arrive_of_reused {s : State} {req : FabricRequest} {owner : TagOwner}
    (hr : s.intake.register = .empty) (hl : s.ret.link = .up) (hm : malformation req = none)
    (ho : s.tagOwner? req.source req.tag = some owner) :
    s.arrive req = s.refuseRequest req .tagReuse .tagReuse (tagReuseIncident req owner) := by
  simp only [State.arrive, hr, hl, hm, ho]

/-- Settles O31: an open obligation has an owner that the tag check finds. -/
theorem requestsRefused : Obligations.RequestsRefused := by
  intro s req hs hr hl
  refine ⟨fun reason hm => ?_, fun hm hopen => ?_⟩
  · refine ⟨_, next_whenRunning hs (State.arrive_of_malformed hr hl hm), ?_⟩
    have hbody : malformedIncident req reason = ⟨.malformed, none, some (req.source, req.tag), none,
        some req.address, BitVec.ofNat 32 reason⟩ := rfl
    rw [← hbody]
    exact s.refuseRequest_eq req .malformed .malformed (malformedIncident req reason)
  · cases ho : s.tagOwner? req.source req.tag with
    | none =>
      rw [(State.tagOwner?_eq_none hr).mp ho] at hopen
      exact absurd hopen (Nat.lt_irrefl 0)
    | some owner =>
      refine ⟨_, owner, next_whenRunning hs (State.arrive_of_reused hr hl hm ho),
        State.holds_of_tagOwner? ho, ?_⟩
      have hrefused := s.refuseRequest_eq req .tagReuse .tagReuse (tagReuseIncident req owner)
      cases owner <;> exact hrefused

/-! ## The stall report (R71) -/

/-- The comparison that reports, of the stall of `q` with the limit in force (R71). -/
theorem State.reportStall_of_due {s : State} {q : StalledRequest} (hq : s.intake.register = .stalled q)
    (hlimit : s.intake.stallLimit ≠ 0) (hnew : q.reported = false)
    (hdue : s.intake.stallLimit.toNat ≤ (s.time - q.stallStart).toNat) :
    s.reportStall = { s with intake := ⟨.stalled { q with reported := true }, s.intake.stallLimit⟩ }.raise
      ⟨.intakeStall, some q.cls, some (q.source, q.tag), none, some q.address, s.time - q.stallStart⟩ := by
  have hreached : s.reached q.stallStart s.intake.stallLimit.toNat = true := decide_eq_true hdue
  have hdetail : BitVec.ofNat 32 (s.elapsed q.stallStart) = s.time - q.stallStart := by
    rw [State.elapsed, BitVec.ofNat_toNat, BitVec.setWidth_eq]
  rw [State.reportStall, hq]
  dsimp only
  rw [if_pos ⟨hlimit, hnew, hreached⟩, hdetail]
  rfl

/-- With nothing due the comparison does nothing (R71). -/
theorem State.reportStall_of_not_due {s : State}
    (h : ∀ q : StalledRequest, s.intake.register = .stalled q → s.intake.stallLimit = 0
      ∨ q.reported = true ∨ (s.time - q.stallStart).toNat < s.intake.stallLimit.toNat) :
    s.reportStall = s := by
  unfold State.reportStall
  split
  · rename_i q hq
    refine if_neg fun ⟨hlimit, hnew, hreached⟩ => ?_
    have hdue : s.intake.stallLimit.toNat ≤ (s.time - q.stallStart).toNat := of_decide_eq_true hreached
    rcases h q hq with h0 | hreported | hlt
    · exact hlimit h0
    · rw [hnew] at hreported
      cases hreported
    · exact Nat.not_lt.mpr hdue hlt
  all_goals rfl

/-- Settles O34: a write of the limit is the comparison with the limit written. -/
theorem stallReportedOnce : Obligations.StallReportedOnce := by
  intro s limit hs
  refine ⟨fun q hq => ⟨fun ⟨hlimit, hnew, hdue⟩ => ⟨?_, fun hsame => ?_⟩, fun h => ⟨?_, fun hsame => ?_⟩⟩,
    fun hnone => ⟨?_, ?_⟩⟩
  · exact next_whenRunning hs
      (State.reportStall_of_due (s := { s with intake.stallLimit := limit }) hq hlimit hnew hdue)
  · subst hsame
    exact next_whenRunning hs (State.reportStall_of_due hq hlimit hnew hdue)
  · refine next_whenRunning hs
      (State.reportStall_of_not_due (s := { s with intake.stallLimit := limit }) fun p hp => ?_)
    obtain rfl : p = q := IntakeState.stalled.inj (hp.symm.trans hq)
    exact h
  · subst hsame
    refine next_whenRunning hs (State.reportStall_of_not_due fun p hp => ?_)
    obtain rfl : p = q := IntakeState.stalled.inj (hp.symm.trans hq)
    exact h
  · exact next_whenRunning hs (State.reportStall_of_not_due (s := { s with intake.stallLimit := limit })
      fun p hp => absurd hp (hnone p))
  · exact next_whenRunning hs (State.reportStall_of_not_due fun p hp => absurd hp (hnone p))

/-! ## Field writes (R66, R78, R160) -/

/-- A setting that its field can carry is read back (R193). -/
theorem Settings.get_put_same (r : Settings) {f : SettingField} {v : BitVec 16}
    (h : f.isByte = true → v.toNat < 256) : (r.put f v).get f = v.toNat := by
  have hbyte : f.isByte = true → (v.setWidth 8).toNat = v.toNat := fun hf => by
    rw [BitVec.toNat_setWidth, Nat.mod_eq_of_lt (h hf)]
  cases f
  case budget | burst | period | deadline => rfl
  all_goals exact hbyte rfl

theorem Settings.get_put_other (r : Settings) {f g : SettingField} (v : BitVec 16) (h : g ≠ f) :
    (r.put f v).get g = r.get g := by
  revert h
  cases f <;> cases g <;> simp [Settings.put, Settings.get]

theorem State.writeShadow_eq (s : State) (e : MapIndex) (m : MatchEntry) :
    s.writeShadow e m = { s with
      map.bankA := if s.map.active = .b then s.map.bankA.set e m else s.map.bankA
      map.bankB := if s.map.active = .a then s.map.bankB.set e m else s.map.bankB } := by
  unfold State.writeShadow
  split <;> rename_i hactive <;> simp [hactive]

/-- Boundary `i` fails: b1 of 0, or a later one not greater than the one before it (R160). -/
def BoundaryFails (b : Vector (BitVec 16) 7) (i : Fin 7) : Prop :=
  if _ : i.val = 0 then b[i] = 0 else b[i].toNat ≤ (b[i.val - 1]'(by omega)).toNat

theorem boundaryFails_first (b : Vector (BitVec 16) 7) : BoundaryFails b 0 ↔ b[0] = 0 := Iff.rfl

theorem boundaryFails_later (b : Vector (BitVec 16) 7) {i : Fin 7} (h : i.val ≠ 0) :
    BoundaryFails b i ↔ b[i].toNat ≤ (b[i.val - 1]'(by omega)).toNat := by
  rw [BoundaryFails, dif_neg h]

/-- The model's check of one boundary. -/
theorem boundaryCheck_iff (b : Vector (BitVec 16) 7) (i : Fin 7) :
    (if h : i.val = 0 then decide (b[i] = 0)
      else decide (b[i].toNat ≤ (b[i.val - 1]'(by omega)).toNat)) = true ↔ BoundaryFails b i := by
  unfold BoundaryFails
  split <;> exact decide_eq_true_iff

theorem firstFailingBoundary_of_fails {b : Vector (BitVec 16) 7} {i : Fin 7} (hi : BoundaryFails b i)
    (hearlier : ∀ j : Fin 7, j < i → ¬ BoundaryFails b j) :
    firstFailingBoundary b = some (i.val + 1) := by
  rw [firstFailingBoundary, Option.map_eq_some_iff]
  refine ⟨i, (find?_finRange_eq_some _ i).mpr ⟨(boundaryCheck_iff b i).mpr hi, fun j hj => ?_⟩, rfl⟩
  exact Bool.eq_false_iff.mpr (mt (boundaryCheck_iff b j).mp (hearlier j hj))

theorem firstFailingBoundary_of_none {b : Vector (BitVec 16) 7} (h : ∀ i : Fin 7, ¬ BoundaryFails b i) :
    firstFailingBoundary b = none := by
  rw [firstFailingBoundary, Option.map_eq_none_iff]
  exact List.find?_eq_none.mpr fun i _ => mt (boundaryCheck_iff b i).mp (h i)

/-- Of ascending boundaries from at least 1 none fails (R160). -/
theorem State.BoundariesSound.not_fails {s : State} (h : s.BoundariesSound) (i : Fin 7) :
    ¬ BoundaryFails s.stats.boundaries i := by
  obtain ⟨hfirst, hascend⟩ := h
  by_cases hi : i.val = 0
  · obtain rfl : i = 0 := Fin.ext hi
    intro h0
    rw [(boundaryFails_first _).mp h0] at hfirst
    exact absurd hfirst (by decide)
  · rw [boundaryFails_later _ hi]
    have hlt := hascend ⟨i.val - 1, by omega⟩
    simp only [Nat.sub_add_cancel (Nat.one_le_iff_ne_zero.mpr hi)] at hlt
    exact Nat.not_le.mpr hlt

/-- A write of boundaries that ascend puts them in force (R160). -/
theorem State.writeBoundaries_of_sound {s : State} {v : Vector (BitVec 16) 7}
    (h : { s with stats.boundaries := v }.BoundariesSound) :
    s.writeBoundaries v = { s with stats.boundaries := v } := by
  rw [State.writeBoundaries, firstFailingBoundary_of_none h.not_fails]

/-- Other boundaries are rejected, with the first that fails (R160, R196). -/
theorem State.writeBoundaries_of_fails (s : State) {v : Vector (BitVec 16) 7} {i : Fin 7}
    (hi : BoundaryFails v i) (hearlier : ∀ j : Fin 7, j < i → ¬ BoundaryFails v j) :
    s.writeBoundaries v = s.raise ⟨.configRejected, none, none, none, none,
      BitVec.ofNat 32 (1 + 256 * (i.val + 1))⟩ := by
  rw [State.writeBoundaries, firstFailingBoundary_of_fails hi hearlier]
  rfl

/-- What a write of a staged setting makes of the budget unit (R78). -/
theorem State.writeStaged_budget (s : State) (c i : ClassId) (f : SettingField) (v : BitVec 16) :
    (s.writeStaged c f v).budget[i] = if i = c
      then { s.budget[c] with staged := s.budget[c].staged.put f v, pending := false } else s.budget[i] :=
  budget_set _ _ _ _

/-- Settles O52, field by field. -/
theorem fieldWritesReachTheirOwners : Obligations.FieldWritesReachTheirOwners := by
  intro s x b c e m f hs hx
  refine ⟨?_, next_whenRunning hs (s.writeShadow_eq e m), ⟨_, next_whenRunning hs rfl, rfl, rfl⟩,
    next_whenRunning hs rfl, fun v => ⟨fun hv => ?_, fun i hfirst hlater hnonzero hearlier => ?_⟩,
    next_whenRunning hs rfl, next_whenRunning hs rfl⟩
  · have hown := (s.writeStaged_budget c c f x).trans (if_pos rfl)
    refine ⟨s.writeStaged c f x, next_whenRunning hs rfl, ?_, fun g hg => ?_, ?_, fun c' hc' => ?_, rfl⟩
    · rw [hown]
      exact Settings.get_put_same _ hx
    · rw [hown]
      exact Settings.get_put_other _ x hg
    · rw [hown]
    · exact (s.writeStaged_budget c c' f x).trans (if_neg hc')
  · exact next_whenRunning hs (State.writeBoundaries_of_sound hv)
  · refine next_whenRunning hs (s.writeBoundaries_of_fails ?_ fun j hj => ?_)
    · by_cases hi : i.val = 0
      · obtain rfl : i = 0 := Fin.ext hi
        exact (boundaryFails_first v).mpr (hfirst rfl)
      · exact (boundaryFails_later v hi).mpr (hlater hi)
    · have hi : i.val ≠ 0 := Nat.ne_of_gt (Nat.lt_of_le_of_lt (Nat.zero_le j.val) hj)
      by_cases hj0 : j.val = 0
      · obtain rfl : j = 0 := Fin.ext hj0
        exact mt (boundaryFails_first v).mp (hnonzero hi)
      · exact mt (boundaryFails_later v hj0).mp (Nat.not_le.mpr (hearlier j hj hj0))

/-! ## The command register (R184, R185) -/

/-- While the status is not RUNNING the owner takes the command (R184). -/
theorem State.command_of_not_running {s : State} (h : s.port.status.state ≠ .running)
    (code argument : Byte) (owner : State → State) :
    s.command code argument owner
      = owner { s with port.commandCode := code, port.commandArgument := argument } :=
  if_neg fun hbusy => h hbusy.1

/-! ## MAP_SWAP and PURGE (R67, R134) -/

/-- A count splits where each element that counts is of exactly one of two kinds. -/
theorem countP_eq_add {α : Type} {p q r : α → Bool} (h : ∀ x : α, (p x).toNat = (q x).toNat + (r x).toNat)
    (l : List α) : l.countP p = l.countP q + l.countP r := by
  have hcons : ∀ (f : α → Bool) (a : α) (l : List α), (a :: l).countP f = l.countP f + (f a).toNat := by
    intro f a l
    rw [List.countP_cons]
    cases f a <;> rfl
  induction l with
  | nil => rfl
  | cons a l ih => rw [hcons, hcons, hcons, ih, h a]; omega

/-- PURGE makes FREE what owed nothing, and keeps what was FREE (R134). -/
theorem SlotState.isFree_purge (x : SlotState) :
    x.purge.isFree.toNat = x.isFree.toNat + x.owesNothing.toNat := by
  cases x with
  | expired r owes => cases owes <;> rfl
  | _ => rfl

theorem SlotState.purge_of_other {x : SlotState} (h : ∀ r : SlotRecord, x ≠ .expired r false) :
    x.purge = x := by
  cases x with
  | expired r owes =>
    cases owes with
    | false => exact absurd rfl (h r)
    | true => rfl
  | _ => rfl

/-- The slots that PURGE frees are those that owed nothing (R134). -/
theorem State.countSlots_purge (s : State) : (s.mapSlots SlotState.purge).countSlots SlotState.isFree
    = s.countSlots SlotState.isFree + s.countSlots SlotState.owesNothing := by
  simp only [State.countSlots, State.mapSlots, Vector.toList_map, List.countP_map]
  exact countP_eq_add (fun k : Slot => SlotState.isFree_purge k.state) _

/-- Everything PURGE does, the status aside, is to the slots (R134, R185). -/
theorem State.commandPurge_eq {s : State} (hidle : s.port.status.state ≠ .running) (b : Byte) :
    s.commandPurge b = { s.mapSlots SlotState.purge with
      port := s.portAfter 7 b .done .none (BitVec.ofNat 16 (s.countSlots SlotState.owesNothing)) } :=
  State.command_of_not_running hidle 7 b _

/-- Settles O55: a swap names the other bank, and a purge counts the slots it frees. -/
theorem swapAndPurge : Obligations.SwapAndPurge := by
  intro s b hs hidle
  have hepoch (k : SlotId) : (s.mapSlots SlotState.purge).transit.slots[k].epoch
      = s.transit.slots[k].epoch := by rw [State.slots_mapSlots]
  have hstate (k : SlotId) : (s.mapSlots SlotState.purge).transit.slots[k].state
      = s.transit.slots[k].state.purge := by rw [State.slots_mapSlots]
  have hfreed : (s.mapSlots SlotState.purge).countSlots SlotState.isFree - s.countSlots SlotState.isFree
      = s.countSlots SlotState.owesNothing := by rw [State.countSlots_purge, Nat.add_sub_cancel_left]
  refine ⟨fun ha => ?_, fun hb => ?_,
    ⟨_, next_whenRunning hs (State.commandPurge_eq hidle b), fun k => ⟨hepoch k, ?_, fun hother => ?_⟩, ?_⟩⟩
  · refine next_whenRunning hs ((State.command_of_not_running hidle 3 b _).trans ?_)
    simp only [State.takeMapSwap, ha]
    rfl
  · refine next_whenRunning hs ((State.command_of_not_running hidle 3 b _).trans ?_)
    simp only [State.takeMapSwap, hb]
    rfl
  · rintro ⟨r, hr⟩
    exact (hstate k).trans (congrArg SlotState.purge hr)
  · exact (hstate k).trans (SlotState.purge_of_other hother)
  · rw [← hfreed]
    rfl

end Sys2Proof.Machine


namespace Sys2Proof.Machine

set_option Elab.async false

/-! ## DEFAULTS (R72, R186, R187) -/

theorem HoldEntry.isFree_iff {x : HoldEntry} : x.isFree = true ↔ x = .free := by
  cases x <;> simp [HoldEntry.isFree]

theorem SlotState.isFree_iff {x : SlotState} : x.isFree = true ↔ x = .free := by
  cases x <;> simp [SlotState.isFree]

theorem State.poolOccupancy_eq_zero {s : State} :
    s.poolOccupancy = 0 ↔ ∀ e : EntryId, s.pool.entries[e] = .free := by
  rw [State.poolOccupancy, countP_toList_eq_zero]
  simp only [Bool.not_eq_false', HoldEntry.isFree_iff]

theorem State.countSlots_isFree_eq {s : State} :
    s.countSlots SlotState.isFree = 128 ↔ ∀ k : SlotId, s.transit.slots[k].state = .free := by
  have hall := List.countP_eq_length (p := fun k : Slot => k.state.isFree) (l := s.transit.slots.toList)
  rw [Vector.length_toList] at hall
  rw [State.countSlots, hall, toList_eq_map_finRange]
  simp only [List.forall_mem_map, List.mem_finRange, forall_const, SlotState.isFree_iff]

/-! ### The retry in an empty pool -/

/-- Where no class is in METER mode no head is in BUDGET_WAIT, so none is noted (R95, R97). -/
theorem State.noteBudgetWaits_of_unmetered {s : State}
    (h : ∀ c : ClassId, s.budget[c].active.isMeter = false) : s.noteBudgetWaits = s := by
  have hone : ∀ c : ClassId, s.noteBudgetWait c = s := by
    intro c
    have hcondition : s.headCondition c ≠ .budgetWait := by
      unfold State.headCondition
      split
      · simp
      · simp only [h c, Bool.false_and, Bool.false_eq_true, if_false]
        split_ifs <;> simp
    rcases s.noteBudgetWait_eq c with ⟨-, hs⟩ | ⟨e, r, hn, -⟩
    · exact hs
    · simp [State.toNote, hcondition] at hn
  have hfold : ∀ cs : List ClassId, cs.foldl State.noteBudgetWait s = s := by
    intro cs
    induction cs with
    | nil => rfl
    | cons c cs ih => rw [List.foldl_cons, hone c, ih]
  exact hfold _

/-- The pool is empty, and every class has its reset settings, its period timer started at `start`. -/
structure State.Pristine (s : State) (start : Time) : Prop where
  entries : ∀ e : EntryId, s.pool.entries[e] = .free
  budget : ∀ c : ClassId, s.budget[c] = ClassBudget.reset start

theorem State.Pristine.occupancy {s : State} {start : Time} (h : s.Pristine start) (c : ClassId) :
    s.occupancy c = 0 :=
  countP_toList_eq_zero.mpr fun e => by rw [h.entries e]; rfl

theorem State.Pristine.freeEntries {s : State} {start : Time} (h : s.Pristine start) :
    s.freeEntries = 192 := by
  rw [State.freeEntries, State.poolOccupancy_eq_zero.mpr h.entries]
  rfl

theorem State.Pristine.usedLines {s : State} {start : Time} (h : s.Pristine start) : s.usedLines = 0 := by
  rw [State.usedLines, toList_eq_map_finRange, List.sum_eq_zero_iff]
  simp only [List.map_map, List.forall_mem_map, Function.comp_def]
  intro e _
  rw [h.entries e]
  rfl

theorem State.Pristine.unreserved {s : State} {start : Time} (h : s.Pristine start) : s.unreserved = 192 := by
  have hshortfall : s.shortfall = fun _ => 0 := by
    funext c
    rw [State.shortfall, State.reservation, h.budget c]
    exact Nat.zero_sub _
  rw [State.unreserved, hshortfall, h.freeEntries]
  rfl

/-- An empty pool takes any request whose data lines the buffer holds (R27). -/
theorem State.Pristine.placementTest {s : State} {start : Time} (h : s.Pristine start) (c : ClassId)
    (kind : Kind) {lines : Nat} (hlines : lines ≤ 1024) : s.placementTest c kind lines = true := by
  have hlimit : s.limit c = 192 := by
    rw [State.limit, h.budget c]
    rfl
  have hbuffer : s.freeLines = 1024 := by
    rw [State.freeLines, h.usedLines]
    rfl
  simp [State.placementTest, h.occupancy, hlimit, h.freeEntries, h.unreserved, hbuffer, hlines]

/-- What placing a retried request in an empty pool makes of a state, its episode ended (R69, R72). -/
def State.placedFirst (s : State) (q : StalledRequest) : State :=
  ((s.setEntry 0 (.queued q.toRecord)).setQueue q.cls (s.pool.queues[q.cls] ++ [0])).endStall q

theorem State.Pristine.placeIn {s : State} {start : Time} (h : s.Pristine start) (q : StalledRequest) :
    (s.placeIn 0 q.toRecord).noteBudgetWaits
      = (s.setEntry 0 (.queued q.toRecord)).setQueue q.cls (s.pool.queues[q.cls] ++ [0]) := by
  have hwait : s.waitListFor q.toRecord = [] := by
    refine List.eq_nil_iff_forall_not_mem.mpr fun a ha => ?_
    obtain ⟨ra, hra, -⟩ := (s.mem_waitListFor q.toRecord a).mp ha
    rw [h.entries a] at hra
    cases hra
  have hplaced : s.placeIn 0 q.toRecord
      = (s.setEntry 0 (.queued q.toRecord)).setQueue q.cls (s.pool.queues[q.cls] ++ [0]) := by
    rw [State.placeIn, hwait, if_pos rfl]
    exact State.countClass_zero _ _ _
  rw [hplaced]
  refine State.noteBudgetWaits_of_unmetered fun c => ?_
  rw [State.setQueue_budget, State.setEntry_budget, h.budget c]
  rfl

/-- A STALLED request meets an empty pool: it takes entry 0, or it carries more lines than the buffer holds
and nothing changes (R27, R69). -/
theorem State.Pristine.retryPlacement {s : State} {start : Time} (h : s.Pristine start) {q : StalledRequest}
    (hq : s.intake.register = .stalled q) :
    s.retryPlacement = s.placedFirst q ∨ (¬ q.data.length ≤ 1024 ∧ s.retryPlacement = s) := by
  obtain ⟨hplaces, hwaits⟩ := s.tryPlace_eq q.toRecord
  cases htest : s.placementTest q.toRecord.cls q.toRecord.kind q.toRecord.data.length with
  | true =>
    left
    have hlowest : s.IsLowestFree 0 := ⟨h.entries 0, fun e he => absurd he (Nat.not_lt_zero _)⟩
    rw [State.retryPlacement, hq]
    dsimp only
    rw [hplaces 0 htest hlowest, h.placeIn]
    rfl
  | false =>
    right
    refine ⟨fun hlines => ?_, ?_⟩
    · rw [h.placementTest _ _ (lines := q.toRecord.data.length) hlines] at htest
      cases htest
    · rw [State.retryPlacement, hq]
      dsimp only
      rw [hwaits htest]

/-! ### The outcomes -/

/-- The state after DEFAULTS but for the retry: the configuration at its reset values, DONE (R187). -/
def State.withDefaults (s : State) (b : Byte) : State :=
  { s with
    budget := Vector.replicate 16 (ClassBudget.reset s.time)
    map := ClassMap.reset
    intake.stallLimit := 0
    stats.autoInterval := 0
    stats.boundaries := resetBoundaries
    alerts.enables := AlertEnables.clear
    port := s.portAfter 12 b .done .none 0 }

/-- Every outcome of DEFAULTS, with its conditions (R186, R187). -/
theorem State.commandDefaults_eq {s : State} (hidle : s.port.status.state ≠ .running) (b : Byte) :
    s.commandDefaults b
      = if s.arbiter.quiesce ≠ .quiesced then { s with port := s.portAfter 12 b .refused .notQuiesced 0 }
        else if s.poolOccupancy ≠ 0 then { s with port := s.portAfter 12 b .refused .notEmpty 1 }
        else if s.countSlots SlotState.isFree ≠ 128 then
          { s with port := s.portAfter 12 b .refused .notEmpty 2 }
        else (s.withDefaults b).retryPlacement :=
  State.command_of_not_running hidle 12 b _

/-- A retry changes the intake's register, the pool, and counters (R69). -/
theorem State.retryPlacement_frame (s : State) : s.retryPlacement = { s with
    intake.register := s.retryPlacement.intake.register
    pool := s.retryPlacement.pool
    stats.live := s.retryPlacement.stats.live
    alerts.saturation := s.retryPlacement.alerts.saturation } := by
  unfold State.retryPlacement
  split
  · rename_i q _
    split
    · rename_i t ht
      obtain ⟨e, -, hplaced⟩ := State.placed_of_tryPlace ht
      have hframe := hplaced.frame
      rw [hframe]
      rfl
    · rfl
  all_goals rfl

theorem State.withDefaults_pristine {s : State} (b : Byte) (h : ∀ e : EntryId, s.pool.entries[e] = .free) :
    (s.withDefaults b).Pristine s.time :=
  ⟨h, fun c => by simp [State.withDefaults]⟩

/-- A retry without a request to place leaves the pool and the counters (R69). -/
theorem State.withDefaults_retry_of_not_stalled {s : State} (b : Byte)
    (h : ∀ q : StalledRequest, s.intake.register ≠ .stalled q) :
    (s.withDefaults b).retryPlacement = s.withDefaults b :=
  State.retryPlacement_of_not_stalled h

/-- The one entry that is not FREE after the retry, and its class's queue (R187). -/
theorem State.placedFirst_pool (s : State) (q : StalledRequest) :
    (s.placedFirst q).pool.entries[(0 : EntryId)] = .queued q.toRecord
      ∧ (∀ e : EntryId, e ≠ 0 → (s.placedFirst q).pool.entries[e] = s.pool.entries[e])
      ∧ (s.placedFirst q).pool.queues[q.cls] = s.pool.queues[q.cls] ++ [0]
      ∧ ∀ c : ClassId, c ≠ q.cls → (s.placedFirst q).pool.queues[c] = s.pool.queues[c] :=
  ⟨(entries_set _ _ _ _).trans (if_pos rfl), fun _ he => (entries_set _ _ _ _).trans (if_neg he),
    (queues_set _ _ _ _).trans (if_pos rfl), fun _ hc => (queues_set _ _ _ _).trans (if_neg hc)⟩

/-- The end of the episode is the only count of the retry (R72). -/
theorem State.placedFirst_counts (s : State) (q : StalledRequest) :
    s.CountsKept (s.placedFirst q) (fun i k => i = q.cls ∧ k = .stallTime)
      ∧ s.MaximaKept (s.placedFirst q)
      ∧ (s.placedFirst q).stats.live[q.cls].stallTime
        = satAdd s.stats.live[q.cls].stallTime (s.time - q.stallStart).toNat :=
  ⟨(State.CountsKept.countClass s q.cls .stallTime _).congr rfl rfl rfl rfl,
    State.MaximaKept.countClass s q.cls .stallTime _,
    (State.get_countClass s q.cls q.cls .stallTime .stallTime _).trans (if_pos ⟨rfl, rfl⟩)⟩

/-- The retry within DEFAULTS keeps every maximum, and with a request STALLED every count but its stall time
(R72, R187). -/
theorem State.withDefaults_retry_counts {s : State} (b : Byte)
    (hfree : ∀ e : EntryId, s.pool.entries[e] = .free) :
    (∀ q : StalledRequest, s.intake.register = .stalled q →
        s.CountsKept (s.withDefaults b).retryPlacement (fun i k => i = q.cls ∧ k = .stallTime))
      ∧ s.MaximaKept (s.withDefaults b).retryPlacement := by
  have hpristine := State.withDefaults_pristine b hfree
  cases hr : s.intake.register with
  | stalled q =>
    rcases hpristine.retryPlacement (q := q) hr with h | ⟨-, h⟩ <;> rw [h]
    · obtain ⟨hcounts, hmaxima, -⟩ := (s.withDefaults b).placedFirst_counts q
      refine ⟨fun p hp => ?_, hmaxima⟩
      cases hp
      exact hcounts.congr rfl rfl rfl rfl
    · exact ⟨fun p _ => (State.CountsKept.refl s _).congr rfl rfl rfl rfl, .refl s⟩
  | empty =>
    rw [State.withDefaults_retry_of_not_stalled b (by simp [hr])]
    exact ⟨nofun, .refl s⟩
  | rejecting source tag owed =>
    rw [State.withDefaults_retry_of_not_stalled b (by simp [hr])]
    exact ⟨nofun, .refl s⟩

/-- What of the state after DEFAULTS the retry cannot touch (R187). -/
theorem State.withDefaults_retry_frame (s : State) (b : Byte) :
    (s.withDefaults b).retryPlacement = { s.withDefaults b with
      intake := ⟨(s.withDefaults b).retryPlacement.intake.register, 0⟩
      pool := (s.withDefaults b).retryPlacement.pool
      stats.live := (s.withDefaults b).retryPlacement.stats.live
      alerts.saturation := (s.withDefaults b).retryPlacement.alerts.saturation } :=
  (s.withDefaults b).retryPlacement_frame

/-- A match entry of the reset class map (R64). -/
theorem ClassMap.reset_banks (i : MapIndex) :
    ClassMap.reset.bankA[i] = ⟨false, false, false, false, 0, 0, 0, 0, 0⟩
      ∧ ClassMap.reset.bankB[i] = ⟨false, false, false, false, 0, 0, 0, 0, 0⟩ :=
  reset_bank i

/-- Settles O58: the three refusals in order, and the retry in an empty pool under reset settings. -/
theorem defaultsRestoreTheConfiguration : Obligations.DefaultsRestoreTheConfiguration := by
  intro s b hs hidle
  have houtcome := State.commandDefaults_eq hidle b
  refine ⟨fun hopen => ?_, fun hq ⟨e, he⟩ => ?_, fun hq hfree ⟨k, hk⟩ => ?_, fun hq hfree hslots => ?_⟩
  · rw [if_pos hopen] at houtcome
    exact next_whenRunning hs houtcome
  · have hheld : s.poolOccupancy ≠ 0 := fun h => he (State.poolOccupancy_eq_zero.mp h e)
    rw [if_neg (not_not.mpr hq), if_pos hheld] at houtcome
    exact next_whenRunning hs houtcome
  · have hempty := State.poolOccupancy_eq_zero.mpr hfree
    have hbusy : s.countSlots SlotState.isFree ≠ 128 := fun h => hk (State.countSlots_isFree_eq.mp h k)
    rw [if_neg (not_not.mpr hq), if_neg (not_not.mpr hempty), if_pos hbusy] at houtcome
    exact next_whenRunning hs houtcome
  · have hempty := State.poolOccupancy_eq_zero.mpr hfree
    have hallFree := State.countSlots_isFree_eq.mpr hslots
    rw [if_neg (not_not.mpr hq), if_neg (not_not.mpr hempty), if_neg (not_not.mpr hallFree)] at houtcome
    have hpristine := State.withDefaults_pristine b hfree
    have hframe := s.withDefaults_retry_frame b
    obtain ⟨hcounts, hmaxima⟩ := State.withDefaults_retry_counts b hfree
    have hquiet := State.withDefaults_retry_of_not_stalled (s := s) b
    have hplaced (q : StalledRequest) (hstalled : s.intake.register = .stalled q)
        (hlines : q.data.length ≤ 1024) :
        (s.withDefaults b).retryPlacement = (s.withDefaults b).placedFirst q :=
      (hpristine.retryPlacement hstalled).resolve_right fun ⟨hmore, _⟩ => hmore hlines
    refine ⟨_, next_whenRunning hs houtcome, fun c => ?_, fun i => ?_, ?_, ?_, ?_, fun hnone => ?_,
      fun q hstalled hlines => ?_, fun q hstalled => ⟨hcounts q hstalled, fun hlines => ?_⟩, hmaxima, ?_⟩
    · rw [hframe]
      exact hpristine.budget c
    · rw [hframe]
      exact ClassMap.reset_banks i
    · rw [hframe]
      rfl
    · rw [hframe]
      rfl
    · rw [hframe]
      rfl
    · rw [hquiet hnone]
      exact ⟨rfl, rfl, rfl, rfl⟩
    · rw [hplaced q hstalled hlines]
      obtain ⟨hfirst, hothers, hqueue, hqueues⟩ := (s.withDefaults b).placedFirst_pool q
      exact ⟨rfl, q.toRecord, hfirst, rfl, rfl, rfl, rfl, rfl, rfl, rfl, rfl, rfl,
        fun e he => (hothers e he).trans (hfree e), hqueue, hqueues⟩
    · rw [hplaced q hstalled hlines]
      exact ((s.withDefaults b).placedFirst_counts q).2.2
    · generalize (s.withDefaults b).retryPlacement = t at hframe ⊢
      rw [hframe]
      rfl

end Sys2Proof.Machine


namespace Sys2Proof.Machine

set_option Elab.async false

/-! ## The memory side: the link's credits, the request channel, the slots in flight, the quiesce -/

/-- What stands between the part and memory, with the quiesce and its status: most updates leave all of it. -/
structure MemSide where
  mem : MemPort
  channel : Option MemRequest
  inFlight : SlotId → Bool
  quiesce : QuiesceState
  status : CommandStatus
  alert : Bool

/-- The memory side of a state. -/
def State.memSide (s : State) : MemSide :=
  { mem := s.mem, channel := s.arbiter.channel
    inFlight := fun k => s.transit.slots[k].state.isInFlight
    quiesce := s.arbiter.quiesce, status := s.port.status, alert := s.alerts.quiesce }

/-- No slot is IN_FLIGHT. -/
abbrev MemSide.NoFlight (a : MemSide) : Prop := ∀ k : SlotId, a.inFlight k = false

theorem State.countSlots_eq_zero {s : State} :
    s.countSlots SlotState.isInFlight = 0 ↔ s.memSide.NoFlight :=
  countP_toList_eq_zero (v := s.transit.slots) (p := fun k : Slot => k.state.isInFlight)

/-- Credits are held only while the link is UP, and then within the granted count (R99, R103). -/
structure MemPort.Sound (m : MemPort) : Prop where
  granted : m.granted ≤ 64
  available : m.available ≤ m.granted
  closed : m.link ≠ .up → m.granted = 0
  opened : m.link = .up → 1 ≤ m.granted

theorem State.creditsSound_iff {s : State} : s.CreditsSound ↔ s.mem.Sound := by
  unfold State.CreditsSound
  constructor
  · intro h
    constructor <;> split at h <;> simp_all
  · rintro ⟨hgranted, havailable, hclosed, hopened⟩
    split <;> simp_all

/-- RUNNING means QUIESCING, which waits on some slot in flight (R113, R185). -/
structure MemSide.QuiesceSound (a : MemSide) : Prop where
  running : a.status.state = .running ↔ a.quiesce = .quiescing
  waits : a.quiesce = .quiescing → ¬ a.NoFlight

theorem State.quiesceSound_iff {s : State} : s.QuiesceSound ↔ s.memSide.QuiesceSound := by
  have hwaits : 0 < s.countSlots SlotState.isInFlight ↔ ¬ s.memSide.NoFlight := by
    rw [Nat.pos_iff_ne_zero, Ne, State.countSlots_eq_zero]
  exact ⟨fun ⟨hrunning, h⟩ => ⟨hrunning, fun hq => hwaits.mp (h hq)⟩,
    fun ⟨hrunning, h⟩ => ⟨hrunning, fun hq => hwaits.mpr (h hq)⟩⟩

/-! ### What an event may make of the memory side -/

/-- The memory side once a quiesce in QUIESCING that waits on no slot has completed (R113). -/
def MemSide.completed (a : MemSide) : MemSide :=
  if a.quiesce = .quiescing ∧ a.NoFlight then
    { a with quiesce := .quiesced, status := { a.status with state := .done }, alert := true }
  else a

/-- From `a` to `b` the credits and the quiesce stay sound, and a quiesce completes exactly with the last slot
in flight (R99, R113). -/
structure MemSide.Steady (a b : MemSide) : Prop where
  credits : a.mem.Sound → b.mem.Sound
  sound : a.QuiesceSound → b.QuiesceSound
  completes : a.QuiesceSound → a.quiesce = .quiescing → b.NoFlight →
    b.quiesce = .quiesced ∧ b.alert = true ∧ b.status = { a.status with state := .done }
  flown : a.QuiesceSound → a.quiesce = .quiescing → b.quiesce = .quiesced → b.NoFlight

/-- From `a` to `b` the rules hold on and nothing is forwarded: no slot comes to be in flight, and no request
to stand on the channel (R105, R111). -/
structure MemSide.Kept (a b : MemSide) : Prop extends a.Steady b where
  channel : b.channel = a.channel ∨ b.channel = none
  flights : ∀ k : SlotId, b.inFlight k = true → a.inFlight k = true

/-- An event that leaves the slots in flight as they are completes no quiesce that waits on them. -/
theorem MemSide.Kept.of_same_flights {a b : MemSide} (hflights : b.inFlight = a.inFlight)
    (hchannel : b.channel = a.channel ∨ b.channel = none) (hmem : a.mem.Sound → b.mem.Sound)
    (hsound : a.QuiesceSound → b.QuiesceSound)
    (hquiesced : a.quiesce = .quiescing → b.quiesce ≠ .quiesced) : a.Kept b where
  credits := hmem
  sound := hsound
  completes ha hq hnone := absurd (fun k : SlotId => (congrFun hflights k).symm.trans (hnone k)) (ha.waits hq)
  flown _ hq hb := absurd hb (hquiesced hq)
  channel := hchannel
  flights _ hk := hflights ▸ hk

/-- An event at the link, the channel or the labels of the status leaves the quiesce as it is. -/
theorem MemSide.Kept.of_same_quiesce {a b : MemSide} (hflights : b.inFlight = a.inFlight)
    (hquiesce : b.quiesce = a.quiesce) (hstate : b.status.state = a.status.state)
    (hchannel : b.channel = a.channel ∨ b.channel = none) (hmem : a.mem.Sound → b.mem.Sound) :
    a.Kept b := by
  refine .of_same_flights hflights hchannel hmem (fun ha => ⟨?_, fun hq hnone => ?_⟩) (fun hq hb => ?_)
  · rw [hstate, hquiesce]
    exact ha.running
  · exact ha.waits (hquiesce.symm.trans hq) fun k => (congrFun hflights k).symm.trans (hnone k)
  · exact absurd (hq.symm.trans (hquiesce.symm.trans hb)) nofun

theorem MemSide.Kept.refl (a : MemSide) : a.Kept a := .of_same_quiesce rfl rfl rfl (.inl rfl) id

theorem MemSide.Kept.of_eq {a b : MemSide} (h : b = a) : a.Kept b := h ▸ .refl a

/-- A quiesce that RUNNING stands for is sound once it has completed where it could (R113). -/
theorem MemSide.QuiesceSound.completed {a : MemSide}
    (h : a.status.state = .running ↔ a.quiesce = .quiescing) : a.completed.QuiesceSound := by
  unfold MemSide.completed
  split
  · exact ⟨by simp, nofun⟩
  · rename_i hopen
    exact ⟨h, fun hq hnone => hopen ⟨hq, hnone⟩⟩

/-- An event that may take slots out of flight, and completes the quiesce with the last of them (R113). -/
theorem MemSide.Kept.completed (a : MemSide) {mem : MemPort} {channel : Option MemRequest}
    {inFlight : SlotId → Bool} (hmem : a.mem.Sound → mem.Sound)
    (hchannel : channel = a.channel ∨ channel = none)
    (hflights : ∀ k : SlotId, inFlight k = true → a.inFlight k = true) :
    a.Kept { a with mem := mem, channel := channel, inFlight := inFlight }.completed := by
  have hsound (ha : a.QuiesceSound) :
      { a with mem := mem, channel := channel, inFlight := inFlight }.completed.QuiesceSound :=
    .completed ha.running
  unfold MemSide.completed at hsound ⊢
  by_cases hlast : a.quiesce = .quiescing ∧ ∀ k : SlotId, inFlight k = false
  · rw [if_pos hlast] at hsound ⊢
    exact ⟨⟨hmem, hsound, fun _ _ _ => ⟨rfl, rfl, rfl⟩, fun _ _ _ => hlast.2⟩, hchannel, hflights⟩
  · rw [if_neg hlast] at hsound ⊢
    refine ⟨⟨hmem, hsound, fun _ hq hnone => absurd ⟨hq, hnone⟩ hlast, fun _ hq hq' => ?_⟩, hchannel,
      hflights⟩
    exact absurd (hq.symm.trans hq') nofun

/-- From `a` to `b` a command was answered DONE or REFUSED, and nothing else of the memory side changed
(R185). -/
structure MemSide.Answers (a b : MemSide) : Prop where
  frame : b = { a with status := b.status }
  ended : b.status.state ≠ .running

/-- A command answered while none is RUNNING: no quiesce waits then (R184, R185). -/
theorem MemSide.Answers.kept {a b : MemSide} (h : a.Answers b) (hidle : a.status.state ≠ .running) :
    a.Kept b := by
  obtain ⟨hframe, hended⟩ := h
  rw [hframe]
  have hopen (ha : a.QuiesceSound) : a.quiesce ≠ .quiescing := fun hq => hidle (ha.running.mpr hq)
  refine .of_same_flights rfl (.inl rfl) id (fun ha => ⟨⟨fun hrun => absurd hrun hended, fun hq => ?_⟩,
    fun hq => ?_⟩) (fun hq hb => absurd (hq.symm.trans hb) nofun)
  · exact absurd hq (hopen ha)
  · exact absurd hq (hopen ha)

/-! ### What each update makes of the memory side -/

@[simp] theorem State.memSide_raise (s : State) (body : IncidentBody) : (s.raise body).memSide = s.memSide := by
  rw [s.raise_frame body]
  rfl

@[simp] theorem State.memSide_chooseOffer (s : State) : s.chooseOffer.memSide = s.memSide := by
  rw [s.chooseOffer_eq.1]
  rfl

@[simp] theorem State.memSide_noteBudgetWaits (s : State) : s.noteBudgetWaits.memSide = s.memSide := by
  rw [State.memSide, s.noteBudgetWaits_onlyFlags.frame]
  rfl

@[simp] theorem State.memSide_countClass (s : State) (c : ClassId) (k : ClassCounter) (n : Nat) :
    (s.countClass c k n).memSide = s.memSide := rfl

@[simp] theorem State.memSide_countGlobal (s : State) (k : GlobalCounter) (n : Nat) :
    (s.countGlobal k n).memSide = s.memSide := rfl

@[simp] theorem State.memSide_joinAnswers (s : State) (owners : List Owner) :
    (s.joinAnswers owners).memSide = s.memSide := rfl

@[simp] theorem State.memSide_setBudget (s : State) (c : ClassId) (b : ClassBudget) :
    (s.setBudget c b).memSide = s.memSide := rfl

@[simp] theorem State.memSide_completeQuiesce (s : State) :
    s.completeQuiesce.memSide = s.memSide.completed := by
  obtain ⟨hcompletes, hwaits⟩ := s.completeQuiesce_eq
  rw [State.countSlots_eq_zero] at hcompletes
  rw [Ne, Ne, State.countSlots_eq_zero, ← not_and_or] at hwaits
  unfold MemSide.completed
  by_cases h : s.arbiter.quiesce = .quiescing ∧ s.memSide.NoFlight
  · exact (congrArg State.memSide (hcompletes h)).trans (if_pos h).symm
  · exact (congrArg State.memSide (hwaits h)).trans (if_neg h).symm

theorem State.memSide_setSlotState (s : State) (k : SlotId) (v : SlotState) :
    (s.setSlotState k v).memSide
      = { s.memSide with inFlight := Function.update s.memSide.inFlight k v.isInFlight } := by
  have hflight : (s.setSlotState k v).memSide.inFlight
      = Function.update s.memSide.inFlight k v.isInFlight := by
    funext i
    simp only [State.memSide, State.slots_setSlotState, Function.update_apply]
    split <;> rfl
  rw [← hflight]
  rfl

/-- A slot that is neither taken into flight nor out of it is no change. -/
theorem State.memSide_setSlotState_of_same {s : State} {k : SlotId} {v : SlotState}
    (h : v.isInFlight = s.transit.slots[k].state.isInFlight) : (s.setSlotState k v).memSide = s.memSide := by
  rw [State.memSide_setSlotState, h]
  exact congrArg (fun f => { s.memSide with inFlight := f }) (Function.update_eq_self k s.memSide.inFlight)

theorem State.memSide_mapSlots (s : State) (f : SlotState → SlotState) :
    (s.mapSlots f).memSide
      = { s.memSide with inFlight := fun k => (f s.transit.slots[k].state).isInFlight } := by
  have hflight : (s.mapSlots f).memSide.inFlight = fun k => (f s.transit.slots[k].state).isInFlight := by
    funext k
    simp only [State.memSide, State.slots_mapSlots]
  rw [← hflight]
  rfl

@[simp] theorem SlotState.isInFlight_purge (x : SlotState) : x.purge.isInFlight = x.isInFlight := by
  cases x with
  | expired r owes => cases owes <;> rfl
  | _ => rfl

@[simp] theorem SlotState.isInFlight_fabricDown (x : SlotState) : x.fabricDown.isInFlight = false := by
  cases x <;> rfl

@[simp] theorem SlotState.isInFlight_memoryDown (x : SlotState) : x.memoryDown.isInFlight = false := by
  cases x with
  | expired r owes => cases owes <;> rfl
  | _ => rfl

/-! ### The intake, the timers, what leaves and the bus -/

theorem State.memSide_tryPlace {s t : State} {r : HoldRecord} (h : s.tryPlace r = some t) :
    t.memSide = s.memSide := by
  obtain ⟨e, -, hplaced⟩ := State.placed_of_tryPlace h
  rw [hplaced.frame]
  rfl

theorem State.memSide_retryPlacement (s : State) : s.retryPlacement.memSide = s.memSide := by
  rw [s.retryPlacement_frame]
  rfl

theorem State.memSide_reportStall (s : State) : s.reportStall.memSide = s.memSide := by
  unfold State.reportStall
  split
  · split
    · exact State.memSide_raise _ _
    · rfl
  all_goals rfl

theorem State.memSide_arrive (s : State) (req : FabricRequest) : (s.arrive req).memSide = s.memSide := by
  rcases s.arrive_cases req with h | ⟨-, owed, count, body, h⟩ | ⟨-, -, -, h⟩ <;> rw [h]
  · rw [State.refuseRequest, State.memSide_chooseOffer, State.memSide_raise]
    rfl
  · unfold State.acceptRequest
    split
    · exact State.memSide_tryPlace ‹_›
    · rfl

theorem State.memSide_takeBoundary (s : State) (c : ClassId) (forced : Bool) :
    (s.takeBoundary c forced).memSide = s.memSide := by
  rw [State.takeBoundary, State.memSide_noteBudgetWaits, State.memSide_setBudget]

theorem State.memSide_autoExpiry (s : State) : s.autoExpiry.memSide = s.memSide := by
  unfold State.autoExpiry
  cases s.stats.bank.state with
  | empty => rfl
  | locked => exact State.memSide_raise _ _

theorem State.memSide_takeResponse (s : State) (resp : MemResponse) :
    (s.takeResponse resp).memSide = s.memSide := by
  unfold State.takeResponse
  split <;> rfl

theorem State.memSide_realLeaves (s : State) : s.realLeaves.memSide = s.memSide := by
  unfold State.realLeaves State.enterTotal
  split
  · rw [State.memSide_chooseOffer]
    split <;> rfl
  · rfl

/-- A slot whose answer has left was not in flight (R148). -/
theorem State.memSide_ownerAnswered (s : State) (o : Owner) : (s.ownerAnswered o).memSide = s.memSide := by
  unfold State.ownerAnswered
  split
  · split <;> rfl
  · split <;> rfl
  · split
    · rename_i hk
      exact State.memSide_setSlotState_of_same (by rw [hk]; rfl)
    · rename_i hk
      exact State.memSide_setSlotState_of_same (by rw [hk]; rfl)
    all_goals rfl

theorem State.memSide_answerLeaves (s : State) : s.answerLeaves.memSide = s.memSide := by
  unfold State.answerLeaves
  split
  · rw [State.memSide_chooseOffer, State.memSide_ownerAnswered]
    rfl
  · rfl

theorem State.memSide_i2cAddress (s : State) (address : BitVec 7) (direction : I2cDirection) :
    (s.i2cAddress address direction).memSide = s.memSide := by
  unfold State.i2cAddress
  split <;> rfl

theorem State.memSide_offsetWrite (s : State) (high low : Byte) :
    (s.offsetWrite high low).memSide = s.memSide := by
  unfold State.offsetWrite
  split <;> rfl

theorem State.memSide_sendAt (s : State) (offset : BitVec 16) : (s.sendAt offset).memSide = s.memSide := by
  have h : (s.readEffect offset).memSide = s.memSide := by
    unfold State.readEffect State.latchField State.removeHeadRecord
    split
    · rfl
    · split
      · split <;> rfl
      · split
        · split <;> rfl
        · rfl
  exact h

theorem State.memSide_writeShadow (s : State) (e : MapIndex) (m : MatchEntry) :
    (s.writeShadow e m).memSide = s.memSide := by
  rw [s.writeShadow_eq e m]
  rfl

theorem State.memSide_writeBoundaries (s : State) (b : Vector (BitVec 16) 7) :
    (s.writeBoundaries b).memSide = s.memSide := by
  unfold State.writeBoundaries
  split
  · rfl
  · exact s.memSide_raise _

theorem State.memSide_writeStallLimit (s : State) (v : BitVec 16) :
    (s.writeStallLimit v).memSide = s.memSide :=
  State.memSide_reportStall _

/-! ### The links and the credits -/

theorem State.memSide_fabricLinkUp (s : State) : s.fabricLinkUp.memSide = s.memSide := by
  unfold State.fabricLinkUp
  split
  · exact State.memSide_raise _ _
  · rfl

theorem State.memSide_dropIntake (s : State) : s.dropIntake.memSide = s.memSide := by
  unfold State.dropIntake
  split <;> rfl

/-- With the link down no slot is in flight, so a quiesce completes (R137, R113). -/
theorem State.memSide_fabricLinkDown {s : State} (h : s.ret.link = .up) :
    s.fabricLinkDown.memSide = { s.memSide with inFlight := fun _ => false }.completed := by
  have hslots := State.memSide_mapSlots s.dropIntake SlotState.fabricDown
  simp only [State.memSide_dropIntake, SlotState.isInFlight_fabricDown] at hslots
  rw [State.fabricLinkDown, h]
  simp only [State.memSide_completeQuiesce, State.memSide_raise, State.memSide_countGlobal]
  rw [← hslots]
  rfl

theorem State.memSide_memoryLinkDown {s : State} (h : s.mem.link ≠ .down) :
    s.memoryLinkDown.memSide = { s.memSide with
      mem := ⟨.down, 0, 0⟩, channel := none, inFlight := fun _ => false }.completed := by
  have hslots := State.memSide_mapSlots { s with mem := ⟨.down, 0, 0⟩, arbiter.channel := none }
    SlotState.memoryDown
  simp only [SlotState.isInFlight_memoryDown] at hslots
  unfold State.memoryLinkDown
  split
  · exact absurd ‹_› h
  all_goals
    simp only [State.memSide_chooseOffer, State.memSide_completeQuiesce, State.memSide_raise,
      State.memSide_countGlobal, State.memSide_joinAnswers, hslots]
    rfl

theorem State.fabricLinkDown_memKept (s : State) : s.memSide.Kept s.fabricLinkDown.memSide := by
  cases hl : s.ret.link with
  | down =>
    rw [State.fabricLinkDown, hl]
    exact .refl _
  | up =>
    rw [State.memSide_fabricLinkDown hl]
    exact .completed s.memSide id (.inl rfl) nofun

theorem MemPort.sound_down : (⟨.down, 0, 0⟩ : MemPort).Sound :=
  ⟨by decide, by decide, fun _ => rfl, nofun⟩

theorem State.memoryLinkDown_memKept (s : State) : s.memSide.Kept s.memoryLinkDown.memSide := by
  by_cases hm : s.mem.link = .down
  · rw [State.memoryLinkDown, hm]
    exact .refl _
  · rw [State.memSide_memoryLinkDown hm]
    exact .completed s.memSide (fun _ => MemPort.sound_down) (.inr rfl) nofun

theorem State.memoryLinkUp_memKept (s : State) : s.memSide.Kept s.memoryLinkUp.memSide := by
  unfold State.memoryLinkUp
  split
  · rename_i hl
    rw [State.memSide_raise]
    refine .of_same_quiesce rfl rfl rfl (.inl rfl) fun ⟨_, havailable, hclosed, _⟩ => ?_
    have hgranted : s.mem.granted = 0 := hclosed (by simp [State.memSide, hl])
    exact ⟨by simp [State.memSide, hgranted], havailable, fun _ => hgranted, nofun⟩
  all_goals exact .refl _

theorem State.memSide_creditExcess (s : State) (case count : Nat) :
    (s.creditExcess case count).memSide = s.memSide := by
  rw [State.creditExcess, State.memSide_raise, State.memSide_countGlobal]

/-- A grant of the 1 to 64 credits that a message carries (R101, R198). -/
theorem State.creditGrant_memKept (s : State) {n : Nat} (hpos : 1 ≤ n) (hle : n ≤ 64) :
    s.memSide.Kept (s.creditGrant n).memSide := by
  unfold State.creditGrant
  split
  · exact .refl _
  · exact .of_same_quiesce rfl rfl rfl (.inl rfl) fun _ =>
      ⟨hle, Nat.le_refl n, fun h => absurd rfl h, fun _ => hpos⟩
  · exact .of_eq (s.memSide_creditExcess 1 n)

theorem State.creditReturn_memKept (s : State) (n : Nat) : s.memSide.Kept (s.creditReturn n).memSide := by
  unfold State.creditReturn
  split
  · exact .refl _
  · exact .of_eq (s.memSide_creditExcess 3 n)
  · split
    · rename_i hroom
      exact .of_same_quiesce rfl rfl rfl (.inl rfl) fun ⟨hgranted, _, hclosed, hopened⟩ =>
        ⟨hgranted, hroom, hclosed, hopened⟩
    · rw [State.memSide_creditExcess]
      exact .of_same_quiesce rfl rfl rfl (.inl rfl) fun ⟨hgranted, _, hclosed, hopened⟩ =>
        ⟨hgranted, Nat.le_refl s.mem.granted, hclosed, hopened⟩

/-! ### Slots that leave flight -/

/-- A slot goes out of flight, and the quiesce completes with the last (R113). -/
theorem MemSide.Kept.landed (a : MemSide) (k : SlotId) :
    a.Kept { a with inFlight := Function.update a.inFlight k false }.completed := by
  refine .completed a id (.inl rfl) fun i hi => ?_
  rw [Function.update_apply] at hi
  split at hi
  · cases hi
  · exact hi

theorem State.expire_memKept {s : State} {k : SlotId} {r : SlotRecord} {d : Time}
    (hk : s.transit.slots[k].state = .inFlight r (some d) false) :
    s.memSide.Kept (s.expire k r d).memSide := by
  have hcount : (s.countClass r.cls .timeouts 1).memSide = s.memSide := State.memSide_countClass _ _ _ _
  unfold State.expire
  dsimp only
  split
  · simp only [State.memSide_chooseOffer, State.memSide_completeQuiesce, State.memSide_raise,
      State.memSide_joinAnswers, State.memSide_setSlotState, hcount]
    exact .landed _ k
  · rw [State.memSide_raise, State.memSide_setSlotState_of_same (by rw [State.countClass_transit, hk]; rfl)]
    exact .of_eq hcount

theorem State.expireSlot_memKept (s : State) (k : SlotId) : s.memSide.Kept (s.expireSlot k).memSide := by
  unfold State.expireSlot
  split
  · split
    · exact State.expire_memKept ‹_›
    · exact .refl _
  all_goals exact .refl _

theorem State.complete_memKept (s : State) (k : SlotId) (r : SlotRecord) (overdue : Bool)
    (resp : MemResponse) : s.memSide.Kept (s.complete k r overdue resp).memSide := by
  have hdeliver : (s.deliver k r resp .completion).memSide
      = { s.memSide with inFlight := Function.update s.memSide.inFlight k false } :=
    s.memSide_setSlotState k .free
  have hcomplete : (s.complete k r overdue resp).memSide
      = (s.deliver k r resp .completion).memSide.completed := by
    rw [State.complete, State.memSide_chooseOffer, State.memSide_completeQuiesce, State.memSide_countClass]
    rfl
  rw [hcomplete, hdeliver]
  exact .landed _ k

/-- A response that finds its slot EXPIRED or LOST takes nothing out of flight (R128). -/
theorem State.memSide_supersede {s : State} {k : SlotId}
    (hk : s.transit.slots[k].state.isInFlight = false) (r : SlotRecord) (resp : MemResponse) :
    (s.supersede k r resp).memSide = s.memSide := by
  have hdeliver : ((s.withdrawAnswer k).deliver k r resp .supersede).memSide = s.memSide :=
    State.memSide_setSlotState_of_same (s := s.withdrawAnswer k) hk.symm
  rw [State.supersede, State.memSide_chooseOffer, State.memSide_raise, State.memSide_countClass, hdeliver]

theorem State.memSide_absorb {s : State} {k : SlotId} (hk : s.transit.slots[k].state.isInFlight = false)
    (r : SlotRecord) : (s.absorb k r).memSide = s.memSide := by
  rw [State.absorb, State.memSide_raise, State.memSide_countClass]
  exact State.memSide_setSlotState_of_same (s := s) hk.symm

theorem State.memSide_stray (s : State) (k : SlotId) (resp : MemResponse) :
    (s.stray k resp).memSide = s.memSide := by
  rw [State.stray, State.memSide_raise, State.memSide_countGlobal]
  rfl

theorem State.matchWith_memKept (s : State) (resp : MemResponse) :
    s.memSide.Kept (s.matchWith resp).memSide := by
  unfold State.matchWith
  dsimp only
  split
  · split
    · exact s.complete_memKept _ _ _ resp
    · rename_i hk
      exact .of_eq (State.memSide_supersede (by rw [hk]; rfl) _ resp)
    · rename_i hk
      exact .of_eq (State.memSide_supersede (by rw [hk]; rfl) _ resp)
    · rename_i hk
      exact .of_eq (State.memSide_absorb (by rw [hk]; rfl) _)
    · exact .of_eq (s.memSide_stray _ resp)
  · exact .of_eq (s.memSide_stray _ resp)

/-! ### The commands of the command register (R184, R185) -/

theorem State.answers_done {s t : State} (h : t.memSide = s.memSide) (code argument : Byte) (detail : Nat) :
    s.memSide.Answers (t.done code argument detail).memSide := by
  rw [← h]
  exact ⟨rfl, nofun⟩

theorem State.answers_refuse {s t : State} (h : t.memSide = s.memSide) (code argument : Byte)
    (reason : Reason) (detail : Nat) :
    s.memSide.Answers (t.refuse code argument reason detail).memSide := by
  rw [← h]
  exact ⟨rfl, nofun⟩

theorem State.takeCommit_answers (argument : Byte) (n : ClassId) (s : State) :
    s.memSide.Answers (s.takeCommit argument n).memSide := by
  unfold State.takeCommit
  split
  · exact State.answers_done (s.memSide_setBudget n _) 4 argument _
  · exact State.answers_refuse rfl 4 argument _ _

theorem State.takeApply_answers (argument : Byte) (n : ClassId) (s : State) :
    s.memSide.Answers (s.takeApply argument n).memSide := by
  unfold State.takeApply
  split
  · exact State.answers_done (s.memSide_takeBoundary n true) 5 argument 0
  · exact State.answers_refuse rfl 5 argument _ _

theorem State.takeDiscard_answers (argument : Byte) (n : ClassId) (s : State) :
    s.memSide.Answers (s.takeDiscard argument n).memSide := by
  rw [State.takeDiscard, State.memSide_chooseOffer]
  refine State.answers_done ?_ 6 argument _
  rw [State.memSide_noteBudgetWaits, State.foldl_cancelEntry_frame]
  rfl

theorem State.takePurge_answers (s : State) (argument : Byte) :
    s.memSide.Answers (s.takePurge argument).memSide := by
  refine State.answers_done ?_ 7 argument _
  rw [State.memSide_mapSlots]
  simp only [SlotState.isInFlight_purge]
  rfl

theorem State.takeSnapshotCommand_answers (s : State) (argument : Byte) :
    s.memSide.Answers (s.takeSnapshotCommand argument).memSide := by
  unfold State.takeSnapshotCommand
  split
  · exact State.answers_done rfl 8 argument 0
  · exact State.answers_refuse (s.memSide_countGlobal _ 1) 8 argument _ 0

theorem State.takeRelease_answers (s : State) (argument : Byte) :
    s.memSide.Answers (s.takeRelease argument).memSide := by
  unfold State.takeRelease
  split
  · exact State.answers_refuse rfl 9 argument _ 0
  · exact State.answers_done rfl 9 argument 0

theorem State.takeDefaults_answers (s : State) (argument : Byte) :
    s.memSide.Answers (s.takeDefaults argument).memSide := by
  unfold State.takeDefaults
  split
  · exact State.answers_refuse rfl 12 argument _ 0
  · split
    · exact State.answers_refuse rfl 12 argument _ 1
    · split
      · exact State.answers_refuse rfl 12 argument _ 2
      · rw [State.memSide_retryPlacement]
        exact State.answers_done rfl 12 argument 0

/-- A command refused BUSY leaves the status RUNNING (R185). -/
theorem State.refuseBusy_memKept (s : State) (code : Byte) :
    s.memSide.Kept (s.refuseBusy code).memSide :=
  .of_same_quiesce rfl rfl rfl (.inl rfl) id

/-- QUIESCE taken from OPEN waits on the slots in flight, or completes at once (R112, R113). -/
theorem State.takeQuiesce_memKept (s : State) (argument : Byte) :
    s.memSide.Kept (s.takeQuiesce argument).memSide := by
  unfold State.takeQuiesce
  split
  · rename_i hopen
    have hnot : s.memSide.quiesce ≠ .quiescing := fun hq => absurd (hopen.symm.trans hq) nofun
    rw [State.memSide_completeQuiesce]
    refine .of_same_flights ?_ ?_ ?_ (fun _ => .completed ⟨fun _ => rfl, fun _ => rfl⟩)
      (fun hq => absurd hq hnot) <;> unfold MemSide.completed <;> split
    · rfl
    · rfl
    · exact .inl rfl
    · exact .inl rfl
    · exact id
    · exact id
  · exact s.refuseBusy_memKept 1
  · rename_i hq
    have hnot : s.memSide.quiesce ≠ .quiescing := fun h => absurd (hq.symm.trans h) nofun
    refine .of_same_flights rfl (.inl rfl) id (fun _ => ⟨⟨nofun, fun h => absurd h hnot⟩,
      fun h => absurd h hnot⟩) (fun h => absurd h hnot)

/-- In OPEN with no command RUNNING nothing waits. -/
theorem MemSide.QuiesceSound.of_opened {a : MemSide} (hq : a.quiesce = .opened)
    (hidle : a.status.state ≠ .running) : a.QuiesceSound :=
  have hnot : a.quiesce ≠ .quiescing := fun h => absurd (hq.symm.trans h) nofun
  ⟨⟨fun h => absurd h hidle, fun h => absurd h hnot⟩, fun h => absurd h hnot⟩

/-- RESUME opens, or is refused where the state is OPEN (R114). -/
theorem State.takeResume_memKept (s : State) (argument : Byte) :
    s.memSide.Kept (s.takeResume argument).memSide := by
  unfold State.takeResume
  split
  · rename_i hq
    exact .of_same_flights rfl (.inl rfl) id (fun _ => .of_opened hq nofun)
      fun _ hb => absurd (hq.symm.trans hb) nofun
  all_goals exact .of_same_flights rfl (.inl rfl) id (fun _ => .of_opened rfl nofun) fun _ => nofun

/-- The port's judgement of a command: what its owner keeps while none is RUNNING, or of RESUME, is kept. -/
theorem State.command_memKept (s : State) (code argument : Byte) {owner : State → State}
    (h : ∀ t : State, t.port.status.state ≠ .running ∨ code = 2 → t.memSide.Kept (owner t).memSide) :
    s.memSide.Kept (s.command code argument owner).memSide := by
  unfold State.command
  dsimp only
  split
  · exact State.refuseBusy_memKept _ code
  · rename_i hjudged
    exact h { s with port.commandCode := code, port.commandArgument := argument }
      ((not_and_or.mp hjudged).imp id not_not.mp)

/-- A command other than QUIESCE and RESUME is answered when it is taken (R185). -/
theorem State.command_memKept_of_answers (s : State) {code : Byte} (argument : Byte) (hcode : code ≠ 2)
    {owner : State → State} (h : ∀ t : State, t.memSide.Answers (owner t).memSide) :
    s.memSide.Kept (s.command code argument owner).memSide :=
  s.command_memKept code argument fun t ht => (h t).kept (ht.resolve_right hcode)

theorem State.classCommand_memKept (s : State) {code : Byte} (argument : Byte) (hcode : code ≠ 2)
    {owner : ClassId → State → State}
    (h : ∀ (n : ClassId) (t : State), t.memSide.Answers (owner n t).memSide) :
    s.memSide.Kept (s.classCommand code argument owner).memSide := by
  refine s.command_memKept_of_answers argument hcode fun t => ?_
  split
  · exact h _ t
  · exact State.answers_refuse rfl code argument _ 2

/-- A write of the command register, by its code (R184). -/
theorem State.writeCommand_memKept (s : State) (code b : Byte) :
    s.memSide.Kept (s.writeCommand code b).memSide := by
  unfold State.writeCommand
  split
  · exact s.command_memKept 1 b fun t _ => t.takeQuiesce_memKept b
  · exact s.command_memKept 2 b fun t _ => t.takeResume_memKept b
  · exact s.command_memKept_of_answers b (by decide) fun _ => State.answers_done rfl 3 b _
  · exact s.classCommand_memKept b (by decide) fun n t => t.takeCommit_answers b n
  · exact s.classCommand_memKept b (by decide) fun n t => t.takeApply_answers b n
  · exact s.classCommand_memKept b (by decide) fun n t => t.takeDiscard_answers b n
  · exact s.command_memKept_of_answers b (by decide) fun t => t.takePurge_answers b
  · exact s.command_memKept_of_answers b (by decide) fun t => t.takeSnapshotCommand_answers b
  · exact s.command_memKept_of_answers b (by decide) fun t => t.takeRelease_answers b
  · exact s.command_memKept_of_answers b (by decide) fun _ => State.answers_done rfl 10 b 0
  · exact s.command_memKept_of_answers b (by decide) fun _ => State.answers_done rfl 11 b _
  · exact s.command_memKept_of_answers b (by decide) fun t => t.takeDefaults_answers b
  · rename_i _ hresume _ _ _ _ _ _ _ _ _ _
    exact s.command_memKept_of_answers b (fun h => hresume (congrArg BitVec.toNat h)) fun _ =>
      State.answers_refuse rfl code b _ 1

/-! ### Fields, and every command -/

theorem State.takeField_memKept (s : State) (f : Field) (bytes : List Byte) :
    s.memSide.Kept (s.takeField f bytes).memSide := by
  cases f
  case stallLimit => exact .of_eq (s.memSide_writeStallLimit _)
  case boundaries => exact .of_eq (s.memSide_writeBoundaries _)
  case alertFlags => exact .of_same_quiesce rfl rfl rfl (.inl rfl) id
  case command => exact s.writeCommand_memKept _ _
  case shadowEntry e => exact .of_eq (s.memSide_writeShadow e _)
  all_goals exact .refl _

theorem State.writeByte_memKept (s : State) (f : Field) (i : Nat) (b : Byte) :
    s.memSide.Kept (s.writeByte f i b).memSide := by
  unfold State.writeByte
  split
  · split
    · split
      · exact State.takeField_memKept (s.setAssembly none) f _
      · exact .refl _
    · exact .refl _
  · exact .refl _

theorem State.windowWrite_memKept (s : State) (b : Byte) : s.memSide.Kept (s.windowWrite b).memSide := by
  unfold State.windowWrite
  split
  · cases fieldAt s.port.offset with
    | none => exact .refl _
    | some p => exact State.writeByte_memKept { s with port.ack := true } p.1 p.2 b
  all_goals exact .refl _

theorem memKept_of_whenRunning {s t : State} {f : State → State}
    (h : (.next (s.whenRunning f) : Host.Outcome State Fault Refusal) = .next t)
    (hf : s.memSide.Kept (f s).memSide) : s.memSide.Kept t.memSide :=
  of_whenRunning (fun u => s.memSide.Kept u.memSide) h (.refl _) hf

theorem quietMem_of_whenRunning {s t : State} {f : State → State}
    (h : (.next (s.whenRunning f) : Host.Outcome State Fault Refusal) = .next t)
    (hf : (f s).memSide = s.memSide) : s.memSide.Kept t.memSide :=
  memKept_of_whenRunning h (.of_eq hf)

/-- Every command but FORWARDING and the resets keeps the rules of the memory side and forwards nothing. -/
theorem exec_memKept {c : Instr} {s t : State} (h : exec c s = .next t) (hreset : isReset c = false)
    (hforward : c ≠ .forwarding) : s.memSide.Kept t.memSide := by
  cases c
  case powerOnReset | resetNAssertion => cases hreset
  case resetEnd straps =>
    cases h
    split <;> exact .refl _
  case fabricLinkUp => exact quietMem_of_whenRunning h s.memSide_fabricLinkUp
  case fabricLinkDown => exact memKept_of_whenRunning h s.fabricLinkDown_memKept
  case memoryLinkUp => exact memKept_of_whenRunning h s.memoryLinkUp_memKept
  case memoryLinkDown => exact memKept_of_whenRunning h s.memoryLinkDown_memKept
  case creditGrant m => exact memKept_of_whenRunning h (s.creditGrant_memKept (by omega) (by omega))
  case creditReturn m => exact memKept_of_whenRunning h (s.creditReturn_memKept _)
  case fabricRequestArrival req => exact quietMem_of_whenRunning h (s.memSide_arrive req)
  case placementRetry => exact quietMem_of_whenRunning h s.memSide_retryPlacement
  case intakeStall => exact quietMem_of_whenRunning h s.memSide_reportStall
  case periodBoundary cls =>
    refine quietMem_of_whenRunning h ?_
    split
    · exact s.memSide_takeBoundary cls false
    · rfl
  case forwarding => exact absurd rfl hforward
  case sendCompletion =>
    exact memKept_of_whenRunning h (.of_same_quiesce rfl rfl rfl (.inr rfl) id)
  case deadlineExpiry slot => exact memKept_of_whenRunning h (s.expireSlot_memKept slot)
  case memoryResponseTaken resp => exact quietMem_of_whenRunning h (s.memSide_takeResponse resp)
  case matchResponse =>
    refine memKept_of_whenRunning h ?_
    split
    · exact s.matchWith_memKept _
    all_goals exact .refl _
  case quiesceCompletion =>
    refine memKept_of_whenRunning h ?_
    rw [State.memSide_completeQuiesce]
    exact .completed s.memSide id (.inl rfl) fun _ hk => hk
  case realResponseLeaves => exact quietMem_of_whenRunning h s.memSide_realLeaves
  case answerLeaves => exact quietMem_of_whenRunning h s.memSide_answerLeaves
  case autoSnapshotExpiry =>
    refine quietMem_of_whenRunning h ?_
    split
    · exact s.memSide_autoExpiry
    · rfl
  case i2cAddress address direction =>
    exact quietMem_of_whenRunning h (s.memSide_i2cAddress address direction)
  case offsetWrite high low => exact quietMem_of_whenRunning h (s.memSide_offsetWrite high low)
  case windowWrite byte => exact memKept_of_whenRunning h (s.windowWrite_memKept byte)
  case fieldLatch =>
    refine quietMem_of_whenRunning h ?_
    split
    · exact s.memSide_sendAt _
    all_goals rfl
  case incidentHeadLatch => exact quietMem_of_whenRunning h (s.memSide_sendAt _)
  case incidentHeadRemove => exact quietMem_of_whenRunning h (s.memSide_sendAt _)
  case shadowEntryWrite index value => exact quietMem_of_whenRunning h (s.memSide_writeShadow index value)
  case stallLimitWrite value => exact quietMem_of_whenRunning h (s.memSide_writeStallLimit value)
  case histogramBoundariesWrite values =>
    exact quietMem_of_whenRunning h (s.memSide_writeBoundaries values)
  case alertFlagsWrite value => exact memKept_of_whenRunning h (.of_same_quiesce rfl rfl rfl (.inl rfl) id)
  case quiesce b => exact memKept_of_whenRunning h (s.writeCommand_memKept 1 b)
  case resume b => exact memKept_of_whenRunning h (s.writeCommand_memKept 2 b)
  case mapSwap b => exact memKept_of_whenRunning h (s.writeCommand_memKept 3 b)
  case classCommit b => exact memKept_of_whenRunning h (s.writeCommand_memKept 4 b)
  case classApply b => exact memKept_of_whenRunning h (s.writeCommand_memKept 5 b)
  case classDiscard b => exact memKept_of_whenRunning h (s.writeCommand_memKept 6 b)
  case purge b => exact memKept_of_whenRunning h (s.writeCommand_memKept 7 b)
  case snapshot b => exact memKept_of_whenRunning h (s.writeCommand_memKept 8 b)
  case snapshotRelease b => exact memKept_of_whenRunning h (s.writeCommand_memKept 9 b)
  case statsClear b => exact memKept_of_whenRunning h (s.writeCommand_memKept 10 b)
  case incidentsClear b => exact memKept_of_whenRunning h (s.writeCommand_memKept 11 b)
  case defaults b => exact memKept_of_whenRunning h (s.writeCommand_memKept 12 b)
  case unknownCommandCode code b => exact memKept_of_whenRunning h (s.writeCommand_memKept code b)
  case transferEnd | stagedSettingWrite | defaultClassWrite | autoSnapshotIntervalWrite | alertEnablesWrite
      | timeCountAdvance =>
    exact quietMem_of_whenRunning h rfl

/-! ### FORWARDING (R105, R106, R109) -/

@[simp] theorem State.memSide_charge (s : State) (c : ClassId) (length : Nat) :
    (s.charge c length).memSide = s.memSide := by
  unfold State.charge
  split <;> rfl

@[simp] theorem State.memSide_removeHead (s : State) (c : ClassId) (e : EntryId) :
    (s.removeHead c e).memSide = s.memSide := rfl

@[simp] theorem State.memSide_offerHold (s : State) (c : ClassId) (t : Time) :
    (s.offerHold c t).memSide = s.memSide := rfl

theorem State.memSide_send (s : State) (k : SlotId) (epoch : BitVec 3) (r : HoldRecord) :
    (s.send k epoch r).memSide = { s.memSide with channel := (s.send k epoch r).arbiter.channel } := rfl

/-- A forwarding takes a credit; the quiesce and its status stand (R109). -/
theorem State.memSide_forwardHead (s : State) (c : ClassId) (e : EntryId) (r : HoldRecord) (k : SlotId) :
    ∃ (channel : Option MemRequest) (inFlight : SlotId → Bool),
      (s.forwardHead c e r k).memSide = { s.memSide with
        mem.available := s.mem.available - 1, channel := channel, inFlight := inFlight } := by
  refine ⟨(s.forwardHead c e r k).memSide.channel, (s.forwardHead c e r k).memSide.inFlight, ?_⟩
  simp only [State.forwardHead, State.memSide_noteBudgetWaits, State.memSide_offerHold,
    State.memSide_countClass, State.memSide_send, State.memSide_removeHead, State.memSide_charge]
  rfl

/-- While the channel is sending nothing is forwarded (R105). -/
theorem State.forwardChoice_of_sending {s : State} (h : s.arbiter.channel ≠ none) : s.forwardChoice = s := by
  unfold State.forwardChoice
  split
  · exact absurd ‹_› h
  · rfl

/-- A READY head means that all four forwarding conditions hold (R95, R106). -/
theorem State.forwardingOpen_of_ready {s : State} {c : ClassId} (h : s.headCondition c = .ready) :
    s.arbiter.quiesce = .opened ∧ s.mem.link = .up ∧ 1 ≤ s.mem.available := by
  have hopen : s.forwardingOpen = true := by
    unfold State.headCondition at h
    split at h
    · cases h
    · split_ifs at h with _ _ _ hopen
      simpa using hopen
  simp only [State.forwardingOpen, Bool.and_eq_true, decide_eq_true_eq] at hopen
  obtain ⟨⟨⟨hquiesce, hlink⟩, havailable⟩, -⟩ := hopen
  exact ⟨hquiesce, hlink, havailable⟩

/-- Everything FORWARDING can do to the memory side: nothing, or, with the channel idle and the forwarding
conditions met, a credit is taken for what it forwards (R105, R106, R109). -/
theorem State.forwardChoice_memSide (s : State) : s.forwardChoice.memSide = s.memSide
    ∨ (s.arbiter.quiesce = .opened ∧ s.mem.link = .up ∧ 1 ≤ s.mem.available ∧ s.arbiter.channel = none
      ∧ ∃ (channel : Option MemRequest) (inFlight : SlotId → Bool),
        s.forwardChoice.memSide = { s.memSide with
          mem.available := s.mem.available - 1, channel := channel, inFlight := inFlight }) := by
  by_cases hidle : s.arbiter.channel = none
  · rcases s.forwardChoice_cases with h | ⟨c, e, r, k, hready, -, -, h⟩
    · exact .inl (congrArg State.memSide h)
    · obtain ⟨hquiesce, hlink, havailable⟩ := State.forwardingOpen_of_ready hready
      rw [h]
      exact .inr ⟨hquiesce, hlink, havailable, hidle, (s.movePointer c).memSide_forwardHead c e r k⟩
  · exact .inl (congrArg State.memSide (State.forwardChoice_of_sending hidle))

theorem State.forwardChoice_steady (s : State) : s.memSide.Steady s.forwardChoice.memSide := by
  rcases s.forwardChoice_memSide with h | ⟨hquiesce, hlink, -, -, channel, inFlight, h⟩
  · exact (MemSide.Kept.of_eq h).toSteady
  · have hnot : s.memSide.quiesce ≠ .quiescing := fun hq => absurd (hquiesce.symm.trans hq) nofun
    rw [h]
    refine ⟨fun ⟨hgranted, havailable, _, hopened⟩ => ⟨hgranted, (Nat.sub_le _ _).trans havailable,
        fun hne => absurd hlink hne, hopened⟩,
      fun ⟨hrunning, _⟩ => ⟨hrunning, fun hq => absurd hq hnot⟩, fun _ hq => absurd hq hnot,
      fun _ hq => absurd hq hnot⟩

/-- The rules of the memory side hold on at every command but a reset. -/
theorem exec_steady {c : Instr} {s t : State} (h : exec c s = .next t) (hreset : isReset c = false) :
    s.memSide.Steady t.memSide := by
  by_cases hc : c = .forwarding
  · subst hc
    exact of_whenRunning (fun u => s.memSide.Steady u.memSide) h (MemSide.Kept.refl _).toSteady
      s.forwardChoice_steady
  · exact (exec_memKept h hreset hc).toSteady

/-- A reset that is taken leaves the memory side at its reset values (R189). -/
theorem exec_memSide_of_reset {c : Instr} {s t : State} (h : exec c s = .next t) (hreset : isReset c = true) :
    t.memSide = s.memSide ∨ t.memSide = State.reset.memSide := by
  cases c
  case powerOnReset =>
    cases h
    exact .inr rfl
  case resetNAssertion lowNs =>
    simp only [exec, execResetNAssertion] at h
    split at h
    · cases h
      exact .inl rfl
    · exact of_whenRunning (fun u => u.memSide = s.memSide ∨ u.memSide = State.reset.memSide) h (.inl rfl)
        (.inr rfl)
  all_goals cases hreset

theorem reset_mem_sound : State.reset.memSide.mem.Sound := MemPort.sound_down

theorem reset_noFlight : State.reset.memSide.NoFlight := fun k => by
  simp only [State.memSide, reset_slot]
  rfl

theorem reset_quiesceSound : State.reset.memSide.QuiesceSound := ⟨⟨nofun, nofun⟩, nofun⟩

/-- What a reset leaves and every other command keeps, every step keeps. -/
theorem step_keeps_memSide {P : MemSide → Prop} (hsteady : ∀ a b : MemSide, a.Steady b → P a → P b)
    (hreset : P State.reset.memSide) {s t : State} (h : step s = .next t) (hs : P s.memSide) :
    P t.memSide := by
  unfold step at h
  split at h
  · cases h
    exact hs
  · rename_i c rest _
    cases hc : isReset c with
    | false => exact hsteady _ _ (exec_steady h hc) hs
    | true =>
      rcases exec_memSide_of_reset h hc with ht | ht <;> rw [ht]
      · exact hs
      · exact hreset

/-! ### The statements -/

/-- Settles O14: the quiesce of the memory side stays sound. -/
theorem quiesceStatusKept : Obligations.QuiesceStatusKept := by
  intro s t hs h
  rw [State.quiesceSound_iff] at hs ⊢
  exact step_keeps_memSide (fun _ _ hab => hab.sound) reset_quiesceSound h hs

/-- Settles O9: the credits of the memory side stay sound. -/
theorem creditsKept : Obligations.CreditsKept := by
  intro s t hs h
  rw [State.creditsSound_iff] at hs ⊢
  exact step_keeps_memSide (P := fun a => a.mem.Sound) (fun _ _ hab => hab.credits) reset_mem_sound h hs

/-- Settles O23: an event completes the quiesce with the last slot in flight. -/
theorem quiesceCompletesWithLastFlight : Obligations.QuiesceCompletesWithLastFlight := by
  intro c s t hs hq h hreset
  rw [State.quiesceSound_iff] at hs
  rw [State.countSlots_eq_zero]
  have hsteady := exec_steady h hreset
  exact ⟨hsteady.completes hs hq, hsteady.flown hs hq⟩

/-- From `a` to `b` a slot came to be in flight, or a request to stand on the channel. -/
def MemSide.Forwards (a b : MemSide) (k : SlotId) : Prop :=
  (b.inFlight k = true ∧ a.inFlight k = false) ∨ (b.channel.isSome = true ∧ b.channel ≠ a.channel)

theorem MemSide.Forwards.irrefl {a : MemSide} {k : SlotId} : ¬ a.Forwards a k := by
  rintro (⟨hb, ha⟩ | ⟨-, hne⟩)
  · exact absurd (hb.symm.trans ha) nofun
  · exact hne rfl

theorem MemSide.Kept.not_forwards {a b : MemSide} (h : a.Kept b) (k : SlotId) : ¬ a.Forwards b k := by
  rintro (⟨hb, ha⟩ | ⟨hsome, hne⟩)
  · exact absurd ((h.flights k hb).symm.trans ha) nofun
  · rcases h.channel with hchannel | hchannel
    · exact hne hchannel
    · rw [hchannel] at hsome
      cases hsome

/-- A reset forwards nothing: it leaves no flight and no request (R189). -/
theorem MemSide.not_forwards_reset (a : MemSide) (k : SlotId) : ¬ a.Forwards State.reset.memSide k := by
  rintro (⟨hb, -⟩ | ⟨hsome, -⟩)
  · exact absurd (hb.symm.trans (reset_noFlight k)) nofun
  · cases hsome

/-- Only FORWARDING forwards, and only with the forwarding conditions met (R105, R106, R111). -/
theorem exec_forwards {c : Instr} {s t : State} {k : SlotId} (h : exec c s = .next t)
    (hf : s.memSide.Forwards t.memSide k) : c = .forwarding ∧ s.arbiter.quiesce = .opened
      ∧ s.mem.link = .up ∧ 1 ≤ s.mem.available ∧ s.arbiter.channel = none := by
  by_cases hc : c = .forwarding
  · subst hc
    rcases eq_or_eq_of_whenRunning h with rfl | rfl
    · exact absurd hf MemSide.Forwards.irrefl
    · rcases s.forwardChoice_memSide with ht | ⟨hquiesce, hlink, havailable, hchannel, -⟩
      · rw [ht] at hf
        exact absurd hf MemSide.Forwards.irrefl
      · exact ⟨rfl, hquiesce, hlink, havailable, hchannel⟩
  · cases hreset : isReset c with
    | false => exact absurd hf ((exec_memKept h hreset hc).not_forwards k)
    | true =>
      rcases exec_memSide_of_reset h hreset with ht | ht <;> rw [ht] at hf
      · exact absurd hf MemSide.Forwards.irrefl
      · exact absurd hf (MemSide.not_forwards_reset _ k)

@[simp] theorem MemSide.completed_channel (a : MemSide) : a.completed.channel = a.channel := by
  unfold MemSide.completed
  split <;> rfl

/-- QUIESCE leaves the request on the channel (R111). -/
theorem State.commandQuiesce_channel (s : State) (b : Byte) :
    (s.commandQuiesce b).memSide.channel = s.memSide.channel := by
  unfold State.commandQuiesce State.command State.takeQuiesce
  dsimp only
  split
  · rfl
  · split
    · rw [State.memSide_completeQuiesce, MemSide.completed_channel]
      rfl
    all_goals rfl

/-- Settles O17: what is forwarded is forwarded at FORWARDING; a link-down withdraws it, a QUIESCE does not. -/
theorem forwardingOnlyWhenOpen : Obligations.ForwardingOnlyWhenOpen := by
  refine ⟨fun c s t k h hf => exec_forwards h hf, fun s t hs hm h => ?_, fun s t b h => ?_⟩
  · cases h
    rw [State.whenRunning_of_running hs]
    have hchannel := congrArg MemSide.channel (State.memSide_memoryLinkDown hm)
    rw [MemSide.completed_channel] at hchannel
    exact hchannel
  · exact of_whenRunning (fun u => u.memSide.channel = s.memSide.channel) h rfl (s.commandQuiesce_channel b)

end Sys2Proof.Machine


namespace Sys2Proof.Machine

set_option Elab.async false

/-! ## The link-ups and the credits (R100, R101, R102, R140) -/

theorem State.fabricLinkUp_of_down {s : State} (h : s.ret.link = .down) :
    s.fabricLinkUp = { s with ret.link := .up }.raise (plainIncident .fabricLinkUp 0) := by
  rw [State.fabricLinkUp, h]

theorem State.memoryLinkUp_of_down {s : State} (h : s.mem.link = .down) :
    s.memoryLinkUp = { s with mem.link := .waitGrant }.raise (plainIncident .memoryLinkUp 0) := by
  rw [State.memoryLinkUp, h]

theorem State.creditGrant_of_waitGrant {s : State} (h : s.mem.link = .waitGrant) (n : Nat) :
    s.creditGrant n = { s with mem := ⟨.up, n, n⟩ } := by
  rw [State.creditGrant, h]

theorem State.creditGrant_of_up {s : State} (h : s.mem.link = .up) (n : Nat) :
    s.creditGrant n = s.creditExcess 1 n := by
  rw [State.creditGrant, h]

theorem State.creditReturn_of_waitGrant {s : State} (h : s.mem.link = .waitGrant) (n : Nat) :
    s.creditReturn n = s.creditExcess 3 n := by
  rw [State.creditReturn, h]

/-- In UP a return adds its credits as far as the granted count, and reports what is above it (R102). -/
theorem State.creditReturn_of_up {s : State} (h : s.mem.link = .up) (n : Nat) :
    s.creditReturn n = if s.mem.available + n ≤ s.mem.granted then
        { s with mem.available := s.mem.available + n }
      else { s with mem.available := s.mem.granted }.creditExcess 2 n := by
  rw [State.creditReturn, h]

/-- The incident of a credit excess: its case and the count the message carried (R196). -/
theorem State.creditExcess_eq (s : State) (case n : Nat) :
    s.creditExcess case n = (s.countGlobal .creditExcess 1).raise
      ⟨.creditExcess, none, none, none, none, BitVec.ofNat 32 (case + 256 * n)⟩ := rfl

/-- Settles O25, by the link state that each message finds. -/
theorem linkUpsAndCredits : Obligations.LinkUpsAndCredits := by
  rintro s m n hs rfl
  refine ⟨fun h => next_whenRunning hs (State.fabricLinkUp_of_down h),
    fun h => next_whenRunning hs (State.memoryLinkUp_of_down h),
    fun h => ⟨next_whenRunning hs (State.creditGrant_of_waitGrant h _), ?_⟩,
    fun h => ⟨?_, fun hroom => ?_, fun hexcess => ?_⟩⟩
  · exact next_whenRunning hs ((State.creditReturn_of_waitGrant h _).trans (s.creditExcess_eq 3 _))
  · exact next_whenRunning hs ((State.creditGrant_of_up h _).trans (s.creditExcess_eq 1 _))
  · exact next_whenRunning hs ((State.creditReturn_of_up h _).trans (if_pos hroom))
  · exact next_whenRunning hs ((State.creditReturn_of_up h _).trans
      ((if_neg (Nat.not_le.mpr hexcess)).trans (State.creditExcess_eq _ 2 _)))

/-! ## QUIESCE and RESUME (R112, R113, R114) -/

/-- RESUME is taken even while a command is RUNNING (R184). -/
theorem State.commandResume_eq (s : State) (b : Byte) : s.commandResume b
    = { s with port.commandCode := 2, port.commandArgument := b }.takeResume b :=
  if_neg fun ⟨_, hcode⟩ => hcode rfl

theorem State.commandQuiesce_eq {s : State} (hidle : s.port.status.state ≠ .running) (b : Byte) :
    s.commandQuiesce b = { s with port.commandCode := 1, port.commandArgument := b }.takeQuiesce b :=
  State.command_of_not_running hidle 1 b _

/-- QUIESCE from OPEN is RUNNING with the number of slots in flight, before it may complete (R112). -/
theorem State.commandQuiesce_of_opened {s : State} (hidle : s.port.status.state ≠ .running)
    (hq : s.arbiter.quiesce = .opened) (b : Byte) :
    s.commandQuiesce b = { s with
      arbiter.quiesce := .quiescing
      port := s.portAfter 1 b .running .none
        (BitVec.ofNat 16 (s.countSlots SlotState.isInFlight)) }.completeQuiesce := by
  rw [State.commandQuiesce_eq hidle, State.takeQuiesce, hq]
  rfl

theorem State.commandQuiesce_of_quiesced {s : State} (hidle : s.port.status.state ≠ .running)
    (hq : s.arbiter.quiesce = .quiesced) (b : Byte) :
    s.commandQuiesce b = { s with
      draws := s.draws + 1
      port := s.portAfter 1 b .refused .already (Config.unstatedDetail s.draws) } := by
  rw [State.commandQuiesce_eq hidle, State.takeQuiesce, hq]
  rfl

/-- Settles O54: QUIESCE completes at once exactly where nothing is in flight. -/
theorem quiesceAndResume : Obligations.QuiesceAndResume := by
  rintro s b n hs rfl
  refine ⟨fun hidle => ⟨fun hq hflying => ?_, fun hq hnone => ?_, fun hq => ?_⟩,
    fun hq => ?_, fun hq => ?_, fun hq => ?_⟩
  · exact next_whenRunning hs ((State.commandQuiesce_of_opened hidle hq b).trans
      ((State.completeQuiesce_eq _).2 (.inr hflying)))
  · refine next_whenRunning hs ((State.commandQuiesce_of_opened hidle hq b).trans ?_)
    rw [(State.completeQuiesce_eq _).1, hnone]
    · rfl
    · exact ⟨rfl, hnone⟩
  · exact next_whenRunning hs (State.commandQuiesce_of_quiesced hidle hq b)
  all_goals
    refine next_whenRunning hs ((s.commandResume_eq b).trans ?_)
    rw [State.takeResume, hq]
    rfl

/-! ## MEMORY_LINK_DOWN (R104, R113, R136) -/

/-- Where no slot is in flight a quiesce in QUIESCING completes (R113). -/
theorem State.completeQuiesce_of_noFlight {p : State} (h : p.countSlots SlotState.isInFlight = 0) :
    p.completeQuiesce = { p with
      arbiter.quiesce := if p.arbiter.quiesce = .quiescing then .quiesced else p.arbiter.quiesce
      port.status.state := if p.arbiter.quiesce = .quiescing then .done else p.port.status.state
      alerts.quiesce := p.alerts.quiesce || decide (p.arbiter.quiesce = .quiescing) } := by
  obtain ⟨hcompletes, hstays⟩ := p.completeQuiesce_eq
  by_cases hq : p.arbiter.quiesce = .quiescing
  · simp [hcompletes ⟨hq, h⟩, hq]
  · simp [hstays (.inl hq), hq]

/-- The state after a memory link-down but for the quiesce and the channel's choice: the losses are counted and
reported (R104, R136). -/
def State.withLosses (s : State) : State :=
  { s.mapSlots SlotState.memoryDown with
    mem := ⟨.down, 0, 0⟩
    arbiter.channel := none
    ret.answers := s.ret.answers ++ s.lostOrder
    stats.globals := s.stats.globals.bump .lostOnMemoryDown (s.countSlots SlotState.becomesLost)
    alerts.saturation := s.alerts.saturation
      || saturates s.stats.globals.lostOnMemoryDown (s.countSlots SlotState.becomesLost)
    incidents := (s.raise ⟨.memoryLinkDown, none, none, none, none,
      if s.mem.link = .up then 2 else 1⟩).incidents }

theorem State.withLosses_noFlight (s : State) : s.withLosses.countSlots SlotState.isInFlight = 0 := by
  rw [State.countSlots_eq_zero]
  intro k
  exact (congrArg (fun x : Slot => x.state.isInFlight) (s.slots_mapSlots SlotState.memoryDown k)).trans
    (SlotState.isInFlight_memoryDown _)

theorem State.memoryLinkDown_eq {s : State} (h : s.mem.link ≠ .down) :
    s.memoryLinkDown = s.withLosses.completeQuiesce.chooseOffer := by
  unfold State.memoryLinkDown
  split
  · exact absurd ‹_› h
  all_goals
    rename_i hlink
    dsimp only
    rw [State.raise_eq_of_same_queue (t := s), State.withLosses, hlink]
    all_goals rfl

/-- What becomes of the slots at a memory link-down (R136). -/
theorem State.memoryLinkDown_slot {s : State} (h : s.mem.link ≠ .down) (k : SlotId) :
    s.memoryLinkDown.transit.slots[k]
      = ⟨s.transit.slots[k].epoch, s.transit.slots[k].state.memoryDown⟩ := by
  have htransit : s.memoryLinkDown.transit = (s.mapSlots SlotState.memoryDown).transit := by
    rw [State.memoryLinkDown_eq h, (State.chooseOffer_eq _).1,
      State.completeQuiesce_of_noFlight s.withLosses_noFlight]
    rfl
  rw [htransit]
  exact s.slots_mapSlots SlotState.memoryDown k

theorem State.memoryLinkDown_noFlight {s : State} (h : s.mem.link ≠ .down) :
    s.memoryLinkDown.countSlots SlotState.isInFlight = 0 := by
  rw [State.countSlots_eq_zero]
  intro k
  exact (congrArg (fun x : Slot => x.state.isInFlight) (State.memoryLinkDown_slot h k)).trans
    (SlotState.isInFlight_memoryDown _)

/-- Everything a memory link-down changes: the quiesce completes, and the channel makes its choice (R104, R113,
R150). -/
theorem State.memoryLinkDown_frame {s : State} (h : s.mem.link ≠ .down) :
    s.memoryLinkDown = { s.withLosses with
      arbiter.quiesce := s.quiesceAfter s.memoryLinkDown
      port.status.state := if s.arbiter.quiesce = .quiescing then .done else s.port.status.state
      alerts.quiesce := s.alerts.quiesce || decide (s.arbiter.quiesce = .quiescing)
      ret.channel := s.memoryLinkDown.channelAfter s.ret.channel } := by
  have hcomplete := State.completeQuiesce_of_noFlight s.withLosses_noFlight
  have hquiesce : s.quiesceAfter s.memoryLinkDown
      = if s.arbiter.quiesce = .quiescing then .quiesced else s.arbiter.quiesce := by
    simp only [State.quiesceAfter, State.memoryLinkDown_noFlight h, and_true]
  have hchannel : s.memoryLinkDown.ret.channel = s.memoryLinkDown.channelAfter s.ret.channel := by
    rw [State.memoryLinkDown_eq h]
    exact State.chooseOffer_ret_channel _ _ (by rw [hcomplete]; rfl)
  rw [hquiesce, ← hchannel, State.memoryLinkDown_eq h, (State.chooseOffer_eq _).1, hcomplete]
  rfl

theorem SlotState.memoryDown_eq (x : SlotState) : x.memoryDown = (match x with
    | .free => .free
    | .inFlight r _ _ => .lost r
    | .expired r owes => if owes then .lost r else .free
    | .lost r => .lost r) := by
  cases x with
  | expired r owes => cases owes <;> rfl
  | _ => rfl

/-- Settles O27: after the losses nothing is in flight, so the quiesce completes and the channel chooses. -/
theorem memoryLinkDownLosesFlights : Obligations.MemoryLinkDownLosesFlights := by
  rintro s lost hs hm hlost
  have hbecomes : lost = s.countSlots SlotState.becomesLost := hlost
  refine ⟨s.memoryLinkDown, next_whenRunning hs rfl, fun k => ?_, ?_⟩
  · rw [State.memoryLinkDown_slot hm]
    exact ⟨rfl, SlotState.memoryDown_eq _⟩
  · have hslots : s.memoryLinkDown.transit.slots = s.withLosses.transit.slots := by
      rw [State.memoryLinkDown_frame hm]
    rw [hbecomes, hslots]
    exact State.memoryLinkDown_frame hm

end Sys2Proof.Machine


namespace Sys2Proof.Machine

set_option Elab.async false

/-! ## The transit table: what an event may make of it -/

/-- From `x` to `y` a slot is not taken into flight anew: one in flight was so before, with the same record and
deadline time, and its overdue flag is as it was or was set under WATCH (R121, R123). -/
def SlotState.FlightKept (x y : SlotState) : Prop :=
  ∀ (r : SlotRecord) (d : Option Time) (overdue : Bool), y = .inFlight r d overdue →
    x = .inFlight r d overdue ∨ (x = .inFlight r d false ∧ d.isSome = true ∧ r.answers = false)

theorem SlotState.FlightKept.refl (x : SlotState) : x.FlightKept x := fun _ _ _ h => .inl h

theorem SlotState.FlightKept.of_landed {x y : SlotState} (h : y.isInFlight = false) : x.FlightKept y := by
  rintro r d overdue rfl
  cases h

theorem SlotState.flightKept_purge (x : SlotState) : x.FlightKept x.purge := by
  cases x with
  | expired r owes => cases owes <;> exact .of_landed rfl
  | _ => exact .refl _

/-- From `a` to `b` no slot is allocated: the epochs and the forwarding order stand, and no slot is taken into
flight (R119, R136). -/
structure TransitTable.Kept (a b : TransitTable) : Prop where
  order : b.order = a.order
  epoch : ∀ k : SlotId, b.slots[k].epoch = a.slots[k].epoch
  flight : ∀ k : SlotId, a.slots[k].state.FlightKept b.slots[k].state

theorem TransitTable.Kept.refl (a : TransitTable) : a.Kept a := ⟨rfl, fun _ => rfl, fun _ => .refl _⟩

theorem TransitTable.Kept.of_eq {a b : TransitTable} (h : b = a) : a.Kept b := h ▸ .refl a

theorem State.mapSlots_transitKept (s : State) {f : SlotState → SlotState}
    (hf : ∀ x : SlotState, x.FlightKept (f x)) : s.transit.Kept (s.mapSlots f).transit where
  order := rfl
  epoch k := by rw [State.slots_mapSlots]
  flight k := by
    rw [State.slots_mapSlots]
    exact hf _

theorem State.setSlotState_transitKept (s : State) {k : SlotId} {v : SlotState}
    (hv : s.transit.slots[k].state.FlightKept v) : s.transit.Kept (s.setSlotState k v).transit where
  order := rfl
  epoch i := by
    rw [State.slots_setSlotState]
    split
    · rename_i hi
      rw [hi]
    · rfl
  flight i := by
    rw [State.slots_setSlotState]
    split
    · rename_i hi
      rw [hi]
      exact hv
    · exact .refl _

/-- The table once a FREE slot `k` is allocated: its epoch advances, and it joins the forwarding order at the end
(R109, R120). -/
def TransitTable.allocated (a : TransitTable) (k : SlotId) (r : SlotRecord) : TransitTable :=
  { slots := a.slots.set k { epoch := a.slots[k].epoch + 1, state := .inFlight r (deadlineTimeOf r) false }
    order := a.order.filter (fun j => decide (j ≠ k)) ++ [k] }

theorem State.allocate_transit (s : State) (k : SlotId) (r : SlotRecord) :
    (s.allocate k r).transit = s.transit.allocated k r := rfl

theorem TransitTable.slots_allocated (a : TransitTable) (k i : SlotId) (r : SlotRecord) :
    (a.allocated k r).slots[i] = if i = k then
      { epoch := a.slots[k].epoch + 1, state := .inFlight r (deadlineTimeOf r) false } else a.slots[i] :=
  slots_set _ k i _

theorem TransitTable.mem_order_allocated {a : TransitTable} {k i : SlotId} {r : SlotRecord} :
    i ∈ (a.allocated k r).order ↔ i ∈ a.order ∨ i = k := by
  by_cases hi : i = k <;> simp [TransitTable.allocated, hi]

theorem TransitTable.nodup_order_allocated {a : TransitTable} (h : a.order.Nodup) (k : SlotId)
    (r : SlotRecord) : (a.allocated k r).order.Nodup :=
  (h.filter _).append (List.nodup_singleton k) (by simp)

/-! ### The events that leave the table alone -/

@[simp] theorem State.noteBudgetWaits_transit (s : State) : s.noteBudgetWaits.transit = s.transit := by
  rw [s.noteBudgetWaits_onlyFlags.frame]

theorem State.transit_of_tryPlace {s t : State} {r : HoldRecord} (h : s.tryPlace r = some t) :
    t.transit = s.transit := by
  obtain ⟨e, -, hplaced⟩ := State.placed_of_tryPlace h
  rw [hplaced.frame]

@[simp] theorem State.retryPlacement_transit (s : State) : s.retryPlacement.transit = s.transit := by
  rw [s.retryPlacement_frame]

@[simp] theorem State.reportStall_transit (s : State) : s.reportStall.transit = s.transit := by
  unfold State.reportStall
  split
  · split
    · exact State.raise_transit _ _
    · rfl
  all_goals rfl

theorem State.arrive_transit (s : State) (req : FabricRequest) : (s.arrive req).transit = s.transit := by
  rcases s.arrive_cases req with h | ⟨-, owed, count, body, h⟩ | ⟨-, -, -, h⟩ <;> rw [h]
  · simp [State.refuseRequest]
  · unfold State.acceptRequest
    split
    · exact State.transit_of_tryPlace ‹_›
    · rfl

theorem State.takeBoundary_transit (s : State) (c : ClassId) (forced : Bool) :
    (s.takeBoundary c forced).transit = s.transit := by
  simp [State.takeBoundary]

theorem State.autoExpiry_transit (s : State) : s.autoExpiry.transit = s.transit := by
  unfold State.autoExpiry
  cases s.stats.bank.state with
  | empty => rfl
  | locked => exact State.raise_transit _ _

theorem State.takeResponse_transit (s : State) (resp : MemResponse) :
    (s.takeResponse resp).transit = s.transit := by
  unfold State.takeResponse
  split <;> rfl

theorem State.realLeaves_transit (s : State) : s.realLeaves.transit = s.transit := by
  unfold State.realLeaves State.enterTotal
  split
  · rw [State.chooseOffer_transit]
    split <;> rfl
  · rfl

theorem State.fabricLinkUp_transit (s : State) : s.fabricLinkUp.transit = s.transit := by
  unfold State.fabricLinkUp
  split
  · exact State.raise_transit _ _
  · rfl

theorem State.memoryLinkUp_transit (s : State) : s.memoryLinkUp.transit = s.transit := by
  unfold State.memoryLinkUp
  split
  · exact State.raise_transit _ _
  all_goals rfl

theorem State.creditExcess_transit (s : State) (case count : Nat) :
    (s.creditExcess case count).transit = s.transit :=
  State.raise_transit _ _

theorem State.creditGrant_transit (s : State) (n : Nat) : (s.creditGrant n).transit = s.transit := by
  unfold State.creditGrant
  split
  · rfl
  · rfl
  · exact s.creditExcess_transit 1 n

theorem State.creditReturn_transit (s : State) (n : Nat) : (s.creditReturn n).transit = s.transit := by
  unfold State.creditReturn
  split
  · rfl
  · exact s.creditExcess_transit 3 n
  · split
    · rfl
    · exact State.creditExcess_transit _ 2 n

theorem State.i2cAddress_transit (s : State) (address : BitVec 7) (direction : I2cDirection) :
    (s.i2cAddress address direction).transit = s.transit := by
  unfold State.i2cAddress
  split <;> rfl

theorem State.offsetWrite_transit (s : State) (high low : Byte) :
    (s.offsetWrite high low).transit = s.transit := by
  unfold State.offsetWrite
  split <;> rfl

/-- A byte read changes the latch, the incident queue and the port, and no slot (R172, R181). -/
theorem State.sendAt_transit (s : State) (offset : BitVec 16) : (s.sendAt offset).transit = s.transit := by
  have h : (s.readEffect offset).transit = s.transit := by
    unfold State.readEffect State.latchField State.removeHeadRecord
    split
    · rfl
    · split
      · split <;> rfl
      · split
        · split <;> rfl
        · rfl
  exact h

theorem State.writeShadow_transit (s : State) (e : MapIndex) (m : MatchEntry) :
    (s.writeShadow e m).transit = s.transit := by
  unfold State.writeShadow
  split <;> rfl

theorem State.writeStallLimit_transit (s : State) (v : BitVec 16) :
    (s.writeStallLimit v).transit = s.transit :=
  State.reportStall_transit _

theorem State.writeBoundaries_transit (s : State) (b : Vector (BitVec 16) 7) :
    (s.writeBoundaries b).transit = s.transit := by
  unfold State.writeBoundaries
  split
  · rfl
  · exact State.raise_transit _ _

/-! ### Links, deadlines, responses and answers -/

theorem State.dropIntake_transit (s : State) : s.dropIntake.transit = s.transit := by
  unfold State.dropIntake
  split <;> rfl

theorem State.fabricLinkDown_transitKept (s : State) : s.transit.Kept s.fabricLinkDown.transit := by
  unfold State.fabricLinkDown
  split
  · exact .refl _
  · rw [State.completeQuiesce_transit, State.raise_transit, ← s.dropIntake_transit]
    exact s.dropIntake.mapSlots_transitKept fun x => .of_landed x.isInFlight_fabricDown

theorem State.memoryLinkDown_transitKept (s : State) : s.transit.Kept s.memoryLinkDown.transit := by
  by_cases hm : s.mem.link = .down
  · rw [State.memoryLinkDown, hm]
    exact .refl _
  · rw [State.memoryLinkDown_eq hm, State.chooseOffer_transit, State.completeQuiesce_transit]
    exact s.mapSlots_transitKept fun x => .of_landed x.isInFlight_memoryDown

/-- A slot that expires is overdue under WATCH, and out of flight under ANSWER (R123, R124). -/
theorem State.expire_transitKept {s : State} {k : SlotId} {r : SlotRecord} {d : Time}
    (hk : s.transit.slots[k].state = .inFlight r (some d) false) :
    s.transit.Kept (s.expire k r d).transit := by
  unfold State.expire
  dsimp only
  split
  · rw [State.chooseOffer_transit, State.completeQuiesce_transit, State.raise_transit]
    exact s.setSlotState_transitKept (.of_landed (y := .expired r true) rfl)
  · rename_i hguard
    rw [State.raise_transit]
    refine s.setSlotState_transitKept (v := .inFlight r (some d) true) ?_
    rintro r' d' overdue h
    cases h
    exact .inr ⟨hk, rfl, Bool.not_eq_true _ ▸ hguard⟩

theorem State.expireSlot_transitKept (s : State) (k : SlotId) : s.transit.Kept (s.expireSlot k).transit := by
  unfold State.expireSlot
  split
  · rename_i hk
    split
    · exact State.expire_transitKept hk
    · exact .refl _
  all_goals exact .refl _

/-- A matched response frees its slot, and a stray one leaves the table alone (R127, R128, R129, R130). -/
theorem State.matchWith_transitKept (s : State) (resp : MemResponse) :
    s.transit.Kept (s.matchWith resp).transit := by
  have hfreed : s.transit.Kept (s.setSlotState (tagSlot resp.tag) .free).transit :=
    s.setSlotState_transitKept (.of_landed rfl)
  have hsupersede (r : SlotRecord) : s.transit.Kept (s.supersede (tagSlot resp.tag) r resp).transit := by
    rw [State.supersede_frame]
    exact hfreed
  have hstray : s.transit.Kept (s.stray (tagSlot resp.tag) resp).transit := .of_eq (State.raise_transit _ _)
  unfold State.matchWith
  dsimp only
  split
  · split
    · rw [State.complete_frame]
      exact hfreed
    · exact hsupersede _
    · exact hsupersede _
    · rw [State.absorb, State.raise_transit]
      exact hfreed
    · exact hstray
  · exact hstray

theorem State.ownerAnswered_transitKept (s : State) (o : Owner) :
    s.transit.Kept (s.ownerAnswered o).transit := by
  unfold State.ownerAnswered
  split
  · split <;> exact .refl _
  · split <;> exact .refl _
  · split
    · exact s.setSlotState_transitKept (.of_landed rfl)
    · exact s.setSlotState_transitKept (.of_landed rfl)
    all_goals exact .refl _

theorem State.answerLeaves_transitKept (s : State) : s.transit.Kept s.answerLeaves.transit := by
  unfold State.answerLeaves
  split
  · rw [State.chooseOffer_transit]
    exact State.ownerAnswered_transitKept { s with ret.answers := _, ret.channel := .idle, ret.turn := .real } _
  · exact .refl _

/-! ### The commands of the command register (R184) -/

theorem State.takeQuiesce_transit (s : State) (argument : Byte) :
    (s.takeQuiesce argument).transit = s.transit := by
  unfold State.takeQuiesce
  split
  · exact State.completeQuiesce_transit _
  all_goals rfl

theorem State.takeResume_transit (s : State) (argument : Byte) :
    (s.takeResume argument).transit = s.transit := by
  unfold State.takeResume
  split <;> rfl

theorem State.takeCommit_transit (argument : Byte) (n : ClassId) (s : State) :
    (s.takeCommit argument n).transit = s.transit := by
  unfold State.takeCommit
  split <;> rfl

theorem State.takeApply_transit (argument : Byte) (n : ClassId) (s : State) :
    (s.takeApply argument n).transit = s.transit := by
  unfold State.takeApply
  split
  · rw [State.done, State.setStatus_transit, State.takeBoundary_transit]
  · rfl

theorem State.takeDiscard_transit (argument : Byte) (n : ClassId) (s : State) :
    (s.takeDiscard argument n).transit = s.transit := by
  have hframe := State.foldl_cancelEntry_frame s.pool.queues[n] s
  rw [State.takeDiscard, State.chooseOffer_transit, State.done, State.setStatus_transit,
    State.noteBudgetWaits_transit, hframe]
  rfl

theorem State.takeSnapshotCommand_transit (s : State) (argument : Byte) :
    (s.takeSnapshotCommand argument).transit = s.transit := by
  unfold State.takeSnapshotCommand
  split <;> rfl

theorem State.takeRelease_transit (s : State) (argument : Byte) :
    (s.takeRelease argument).transit = s.transit := by
  unfold State.takeRelease
  split <;> rfl

theorem State.takeDefaults_transit (s : State) (argument : Byte) :
    (s.takeDefaults argument).transit = s.transit := by
  unfold State.takeDefaults
  split
  · rfl
  · split
    · rfl
    · split
      · rfl
      · exact State.retryPlacement_transit _

theorem State.command_transitKept (s : State) (code argument : Byte) {owner : State → State}
    (h : ∀ t : State, t.transit.Kept (owner t).transit) :
    s.transit.Kept (s.command code argument owner).transit := by
  unfold State.command
  split
  · exact .refl _
  · exact h { s with port.commandCode := code, port.commandArgument := argument }

theorem State.classCommand_transitKept (s : State) (code argument : Byte)
    {owner : ClassId → State → State} (h : ∀ (n : ClassId) (t : State), t.transit.Kept (owner n t).transit) :
    s.transit.Kept (s.classCommand code argument owner).transit := by
  refine s.command_transitKept code argument fun t => ?_
  split
  · exact h _ t
  · exact .refl _

/-- Of the commands of the command register only PURGE touches a slot (R134, R184). -/
theorem State.writeCommand_transitKept (s : State) (code b : Byte) :
    s.transit.Kept (s.writeCommand code b).transit := by
  unfold State.writeCommand
  split
  · exact s.command_transitKept 1 b fun t => .of_eq (t.takeQuiesce_transit b)
  · exact s.command_transitKept 2 b fun t => .of_eq (t.takeResume_transit b)
  · exact s.command_transitKept 3 b fun _ => .refl _
  · exact s.classCommand_transitKept 4 b fun n t => .of_eq (t.takeCommit_transit b n)
  · exact s.classCommand_transitKept 5 b fun n t => .of_eq (t.takeApply_transit b n)
  · exact s.classCommand_transitKept 6 b fun n t => .of_eq (t.takeDiscard_transit b n)
  · exact s.command_transitKept 7 b fun t => t.mapSlots_transitKept SlotState.flightKept_purge
  · exact s.command_transitKept 8 b fun t => .of_eq (t.takeSnapshotCommand_transit b)
  · exact s.command_transitKept 9 b fun t => .of_eq (t.takeRelease_transit b)
  · exact s.command_transitKept 10 b fun _ => .refl _
  · exact s.command_transitKept 11 b fun _ => .refl _
  · exact s.command_transitKept 12 b fun t => .of_eq (t.takeDefaults_transit b)
  · exact s.command_transitKept code b fun _ => .refl _

theorem State.takeField_transitKept (s : State) (f : Field) (bytes : List Byte) :
    s.transit.Kept (s.takeField f bytes).transit := by
  cases f
  case stallLimit => exact .of_eq (s.writeStallLimit_transit _)
  case boundaries => exact .of_eq (s.writeBoundaries_transit _)
  case command => exact s.writeCommand_transitKept _ _
  case shadowEntry e => exact .of_eq (s.writeShadow_transit e _)
  all_goals exact .refl _

theorem State.writeByte_transitKept (s : State) (f : Field) (i : Nat) (b : Byte) :
    s.transit.Kept (s.writeByte f i b).transit := by
  unfold State.writeByte
  split
  · split
    · split
      · exact State.takeField_transitKept (s.setAssembly none) f _
      · exact .refl _
    · exact .refl _
  · exact .refl _

theorem State.windowWrite_transitKept (s : State) (b : Byte) :
    s.transit.Kept (s.windowWrite b).transit := by
  unfold State.windowWrite
  split
  · cases fieldAt s.port.offset with
    | none => exact .refl _
    | some p => exact State.writeByte_transitKept { s with port.ack := true } p.1 p.2 b
  all_goals exact .refl _

/-! ### Every command -/

theorem transitKept_of_whenRunning {s t : State} {f : State → State}
    (h : (.next (s.whenRunning f) : Host.Outcome State Fault Refusal) = .next t)
    (hf : s.transit.Kept (f s).transit) : s.transit.Kept t.transit :=
  of_whenRunning (fun u => s.transit.Kept u.transit) h (.refl _) hf

theorem quietTransit_of_whenRunning {s t : State} {f : State → State}
    (h : (.next (s.whenRunning f) : Host.Outcome State Fault Refusal) = .next t)
    (hf : (f s).transit = s.transit) : s.transit.Kept t.transit :=
  transitKept_of_whenRunning h (.of_eq hf)

/-- No command but FORWARDING and the resets allocates a slot or takes one into flight. -/
theorem exec_transitKept {c : Instr} {s t : State} (h : exec c s = .next t) (hreset : isReset c = false)
    (hforward : c ≠ .forwarding) : s.transit.Kept t.transit := by
  cases c
  case powerOnReset | resetNAssertion => cases hreset
  case resetEnd straps =>
    cases h
    split <;> exact .refl _
  case fabricLinkUp => exact quietTransit_of_whenRunning h s.fabricLinkUp_transit
  case fabricLinkDown => exact transitKept_of_whenRunning h s.fabricLinkDown_transitKept
  case memoryLinkUp => exact quietTransit_of_whenRunning h s.memoryLinkUp_transit
  case memoryLinkDown => exact transitKept_of_whenRunning h s.memoryLinkDown_transitKept
  case creditGrant m => exact quietTransit_of_whenRunning h (s.creditGrant_transit _)
  case creditReturn m => exact quietTransit_of_whenRunning h (s.creditReturn_transit _)
  case fabricRequestArrival req => exact quietTransit_of_whenRunning h (s.arrive_transit req)
  case placementRetry => exact quietTransit_of_whenRunning h s.retryPlacement_transit
  case intakeStall => exact quietTransit_of_whenRunning h s.reportStall_transit
  case periodBoundary cls =>
    refine quietTransit_of_whenRunning h ?_
    split
    · exact s.takeBoundary_transit cls false
    · rfl
  case forwarding => exact absurd rfl hforward
  case deadlineExpiry slot => exact transitKept_of_whenRunning h (s.expireSlot_transitKept slot)
  case memoryResponseTaken resp => exact quietTransit_of_whenRunning h (s.takeResponse_transit resp)
  case matchResponse =>
    refine transitKept_of_whenRunning h ?_
    split
    · exact s.matchWith_transitKept _
    all_goals exact .refl _
  case quiesceCompletion => exact quietTransit_of_whenRunning h s.completeQuiesce_transit
  case realResponseLeaves => exact quietTransit_of_whenRunning h s.realLeaves_transit
  case answerLeaves => exact transitKept_of_whenRunning h s.answerLeaves_transitKept
  case autoSnapshotExpiry =>
    refine quietTransit_of_whenRunning h ?_
    split
    · exact s.autoExpiry_transit
    · rfl
  case i2cAddress address direction =>
    exact quietTransit_of_whenRunning h (s.i2cAddress_transit address direction)
  case offsetWrite high low => exact quietTransit_of_whenRunning h (s.offsetWrite_transit high low)
  case windowWrite byte => exact transitKept_of_whenRunning h (s.windowWrite_transitKept byte)
  case fieldLatch =>
    refine quietTransit_of_whenRunning h ?_
    split
    · exact s.sendAt_transit _
    all_goals rfl
  case incidentHeadLatch => exact quietTransit_of_whenRunning h (s.sendAt_transit _)
  case incidentHeadRemove => exact quietTransit_of_whenRunning h (s.sendAt_transit _)
  case shadowEntryWrite index value =>
    exact quietTransit_of_whenRunning h (s.writeShadow_transit index value)
  case stallLimitWrite value => exact quietTransit_of_whenRunning h (s.writeStallLimit_transit value)
  case histogramBoundariesWrite values =>
    exact quietTransit_of_whenRunning h (s.writeBoundaries_transit values)
  case quiesce b => exact transitKept_of_whenRunning h (s.writeCommand_transitKept 1 b)
  case resume b => exact transitKept_of_whenRunning h (s.writeCommand_transitKept 2 b)
  case mapSwap b => exact transitKept_of_whenRunning h (s.writeCommand_transitKept 3 b)
  case classCommit b => exact transitKept_of_whenRunning h (s.writeCommand_transitKept 4 b)
  case classApply b => exact transitKept_of_whenRunning h (s.writeCommand_transitKept 5 b)
  case classDiscard b => exact transitKept_of_whenRunning h (s.writeCommand_transitKept 6 b)
  case purge b => exact transitKept_of_whenRunning h (s.writeCommand_transitKept 7 b)
  case snapshot b => exact transitKept_of_whenRunning h (s.writeCommand_transitKept 8 b)
  case snapshotRelease b => exact transitKept_of_whenRunning h (s.writeCommand_transitKept 9 b)
  case statsClear b => exact transitKept_of_whenRunning h (s.writeCommand_transitKept 10 b)
  case incidentsClear b => exact transitKept_of_whenRunning h (s.writeCommand_transitKept 11 b)
  case defaults b => exact transitKept_of_whenRunning h (s.writeCommand_transitKept 12 b)
  case unknownCommandCode code b => exact transitKept_of_whenRunning h (s.writeCommand_transitKept code b)
  case sendCompletion | transferEnd | stagedSettingWrite | defaultClassWrite | autoSnapshotIntervalWrite
      | alertFlagsWrite | alertEnablesWrite | timeCountAdvance =>
    exact quietTransit_of_whenRunning h rfl

/-- Of a forwarding the table sees the allocation only (R109). -/
theorem State.forwardHead_transit (s : State) (c : ClassId) (e : EntryId) (r : HoldRecord) (k : SlotId) :
    (s.forwardHead c e r k).transit = s.transit.allocated k (s.slotRecordFor c r) := by
  simp only [State.forwardHead, State.noteBudgetWaits_transit, State.offerHold_transit,
    State.countClass_transit, State.send_transit, State.removeHead_transit, State.charge_transit]
  rfl

/-- FORWARDING leaves the table alone or allocates a FREE slot (R107, R109, R120). -/
theorem State.forwardChoice_transit (s : State) : s.forwardChoice.transit = s.transit
    ∨ ∃ (k : SlotId) (r : SlotRecord), s.transit.slots[k].state = .free
      ∧ s.forwardChoice.transit = s.transit.allocated k r := by
  unfold State.forwardChoice
  split
  · split
    · rename_i k _ hk
      split
      · exact .inr ⟨k, _, ((s.lowestFreeSlot_eq_some k).mp hk).1, State.forwardHead_transit _ _ _ _ _⟩
      all_goals exact .inl rfl
    · exact .inl rfl
  · exact .inl rfl

theorem exec_forwarding_transit {s t : State} (h : exec .forwarding s = .next t) :
    t.transit = s.transit ∨ ∃ (k : SlotId) (r : SlotRecord), s.transit.slots[k].state = .free
      ∧ t.transit = s.transit.allocated k r :=
  of_whenRunning (fun u => u.transit = s.transit ∨ ∃ (k : SlotId) (r : SlotRecord),
    s.transit.slots[k].state = .free ∧ u.transit = s.transit.allocated k r) h (.inl rfl) s.forwardChoice_transit

theorem exec_transit_of_reset {c : Instr} {s t : State} (h : exec c s = .next t) (hreset : isReset c = true) :
    t.transit = s.transit ∨ t.transit = State.reset.transit := by
  cases c
  case powerOnReset =>
    cases h
    exact .inr rfl
  case resetNAssertion lowNs =>
    simp only [exec, execResetNAssertion] at h
    split at h
    · cases h
      exact .inl rfl
    · exact of_whenRunning (fun u => u.transit = s.transit ∨ u.transit = State.reset.transit) h (.inl rfl)
        (.inr rfl)
  all_goals cases hreset

/-- Everything a step can make of the transit table: no slot is allocated, a FREE one is, or a reset empties
the table. -/
theorem step_transit {s t : State} (h : step s = .next t) : s.transit.Kept t.transit
    ∨ (∃ (k : SlotId) (r : SlotRecord), t.transit = s.transit.allocated k r)
    ∨ t.transit = State.reset.transit := by
  unfold step at h
  split at h
  · cases h
    exact .inl (.refl _)
  · rename_i c rest _
    cases hreset : isReset c with
    | true => exact (exec_transit_of_reset h hreset).imp .of_eq .inr
    | false =>
      by_cases hc : c = .forwarding
      · subst hc
        exact (exec_forwarding_transit h).imp .of_eq fun ⟨k, r, _, hr⟩ => .inl ⟨k, r, hr⟩
      · have hkept := exec_transitKept h hreset hc
        exact .inl hkept

/-! ### The statements -/

theorem State.DeadlinesSound.of_kept {s t : State} (h : s.transit.Kept t.transit) (hs : s.DeadlinesSound) :
    t.DeadlinesSound := by
  intro k r d overdue hk
  rcases h.flight k r d overdue hk with hk | ⟨hk, hd, hr⟩
  · exact hs k r d overdue hk
  · exact ⟨(hs k r d false hk).1, fun _ => ⟨hd, hr⟩⟩

/-- A slot is allocated with its deadline time and the overdue flag clear (R121). -/
theorem State.DeadlinesSound.of_allocated {s t : State} {k : SlotId} {r : SlotRecord}
    (h : t.transit = s.transit.allocated k r) (hs : s.DeadlinesSound) : t.DeadlinesSound := by
  intro i q d overdue hi
  rw [h, TransitTable.slots_allocated] at hi
  split at hi
  · cases hi
    exact ⟨rfl, nofun⟩
  · exact hs i q d overdue hi

theorem State.DeadlinesSound.of_reset {t : State} (h : t.transit = State.reset.transit) :
    t.DeadlinesSound := by
  intro k r d overdue hk
  rw [h, reset_slot] at hk
  cases hk

theorem State.OrderSound.of_kept {s t : State} (h : s.transit.Kept t.transit) (hs : s.OrderSound) :
    t.OrderSound := by
  obtain ⟨hnodup, hlists⟩ := hs
  rw [State.OrderSound, h.order]
  refine ⟨hnodup, fun k hk => hlists k ?_⟩
  cases hy : t.transit.slots[k].state with
  | inFlight r d overdue => rcases h.flight k r d overdue hy with hx | ⟨hx, -⟩ <;> rw [hx] <;> rfl
  | _ => rw [hy] at hk; cases hk

theorem State.OrderSound.of_allocated {s t : State} {k : SlotId} {r : SlotRecord}
    (h : t.transit = s.transit.allocated k r) (hs : s.OrderSound) : t.OrderSound := by
  obtain ⟨hnodup, hlists⟩ := hs
  rw [State.OrderSound, h]
  refine ⟨TransitTable.nodup_order_allocated hnodup k r, fun i hi => ?_⟩
  rw [TransitTable.mem_order_allocated]
  rw [TransitTable.slots_allocated] at hi
  split at hi
  · exact .inr ‹_›
  · exact .inl (hlists i hi)

theorem State.OrderSound.of_reset {t : State} (h : t.transit = State.reset.transit) : t.OrderSound := by
  rw [State.OrderSound, h]
  refine ⟨List.nodup_nil, fun k hk => ?_⟩
  rw [reset_slot] at hk
  cases hk

/-- Settles O10, by what a step can make of the transit table. -/
theorem flightRecordsKept : Obligations.FlightRecordsKept := by
  intro s t h
  rcases step_transit h with hkept | ⟨k, r, halloc⟩ | hreset
  · exact ⟨.of_kept hkept, .of_kept hkept⟩
  · exact ⟨.of_allocated halloc, .of_allocated halloc⟩
  · exact ⟨fun _ => .of_reset hreset, fun _ => .of_reset hreset⟩

/-- Settles O18: only an allocation, at FORWARDING, moves an epoch. -/
theorem epochsMoveAtAllocation : Obligations.EpochsMoveAtAllocation := by
  intro c s t k h hreset
  by_cases hc : c = .forwarding
  · subst hc
    rcases exec_forwarding_transit h with heq | ⟨i, r, hfree, halloc⟩
    · exact .inl (by rw [heq])
    · rw [halloc, TransitTable.slots_allocated]
      split
      · rename_i hk
        subst hk
        exact .inr ⟨rfl, hfree, rfl, rfl⟩
      · exact .inl rfl
  · exact .inl ((exec_transitKept h hreset hc).epoch k)

end Sys2Proof.Machine


namespace Sys2Proof.Machine

set_option Elab.async false

/-! ## DEADLINE_EXPIRY (R122, R123, R124) -/

/-- A deadline acts at most once, and only once it is reached (R122). -/
theorem State.expireSlot_of_not_due {s : State} {k : SlotId}
    (h : ∀ (r : SlotRecord) (d : Time), s.transit.slots[k].state = .inFlight r (some d) false →
      (s.time - r.forwardTime).toNat < r.deadline.toNat) : s.expireSlot k = s := by
  unfold State.expireSlot
  split
  · rename_i r d hk
    refine if_neg fun hreached => ?_
    exact absurd (of_decide_eq_true hreached) (Nat.not_le.mpr (h r d hk))
  all_goals rfl

theorem State.expireSlot_of_due {s : State} {k : SlotId} {r : SlotRecord} {d : Time}
    (hk : s.transit.slots[k].state = .inFlight r (some d) false)
    (hdue : r.deadline.toNat ≤ (s.time - r.forwardTime).toNat) : s.expireSlot k = s.expire k r d := by
  rw [State.expireSlot, hk]
  exact if_pos (decide_eq_true hdue)

/-- An expiry under WATCH marks the slot overdue, counts and reports, and changes nothing else (R123). -/
theorem State.expire_of_watch {r : SlotRecord} (hguard : r.guard ≠ 1) (s : State) (k : SlotId) (d : Time) :
    s.expire k r d = { s.setSlotState k (.inFlight r (some d) true) with
      stats.live := (s.countClass r.cls .timeouts 1).stats.live
      alerts.saturation := (s.countClass r.cls .timeouts 1).alerts.saturation
      incidents := (s.raise (slotIncident .deadlineWatched k r (r.deadline.setWidth 32))).incidents } := by
  have hanswers : ¬ r.answers = true := by simpa [SlotRecord.answers] using hguard
  rw [State.expire, if_neg hanswers, State.raise_eq_of_same_queue (t := s)]
  all_goals rfl

/-- Everything an expiry under ANSWER does but what the quiesce and the channel make of it (R124). -/
def State.answeredExpiry (s : State) (k : SlotId) (r : SlotRecord) : State :=
  { s.setSlotState k (.expired r true) with
    ret.answers := s.ret.answers ++ [.slot k]
    stats.live := (s.countClass r.cls .timeouts 1).stats.live
    alerts.saturation := (s.countClass r.cls .timeouts 1).alerts.saturation
    incidents := (s.raise (slotIncident .deadlineAnswered k r (r.deadline.setWidth 32))).incidents }

theorem State.expire_of_answer {r : SlotRecord} (hguard : r.guard = 1) (s : State) (k : SlotId) (d : Time) :
    s.expire k r d = (s.answeredExpiry k r).completeQuiesce.chooseOffer := by
  have hanswers : r.answers = true := decide_eq_true hguard
  rw [State.expire, if_pos hanswers, State.raise_eq_of_same_queue (t := s)]
  all_goals rfl

/-! ### The quiesce and the channel after an event -/

/-- A quiesce that may complete and a channel that may choose change nothing else (R113, R150). -/
theorem State.completeQuiesce_chooseOffer_frame (p : State) :
    p.completeQuiesce.chooseOffer = { p with
      ret.channel := p.completeQuiesce.chooseOffer.channelAfter p.ret.channel
      arbiter.quiesce := p.completeQuiesce.chooseOffer.arbiter.quiesce
      port.status.state := p.completeQuiesce.chooseOffer.port.status.state
      alerts.quiesce := p.completeQuiesce.chooseOffer.alerts.quiesce } := by
  have hchannel := p.completeQuiesce.chooseOffer_ret_channel p.ret.channel (by simp)
  rw [← hchannel, State.chooseOffer_arbiter, State.chooseOffer_port, State.chooseOffer_alerts,
    p.completeQuiesce.chooseOffer_eq.1]
  generalize p.completeQuiesce.chooseOffer.ret.channel = channel
  rw [p.completeQuiesce_frame]

/-- What the quiesce state is after an event that ends so, from `s` in the quiesce state of `p` (R113). -/
theorem State.quiesceAfter_completeQuiesce_chooseOffer {s p : State}
    (h : p.arbiter.quiesce = s.arbiter.quiesce) :
    p.completeQuiesce.chooseOffer.arbiter.quiesce = s.quiesceAfter p.completeQuiesce.chooseOffer := by
  rw [State.quiesceAfter, State.countSlots, State.chooseOffer_transit, State.completeQuiesce_transit,
    State.chooseOffer_arbiter, p.completeQuiesce_frame, ← h]
  rfl

theorem State.completeQuiesce_chooseOffer_of_not_quiescing {p : State} (h : p.arbiter.quiesce ≠ .quiescing) :
    p.completeQuiesce.chooseOffer.port = p.port
      ∧ p.completeQuiesce.chooseOffer.alerts.quiesce = p.alerts.quiesce := by
  rw [State.chooseOffer_port, State.chooseOffer_alerts, p.completeQuiesce_eq.2 (.inl h)]
  exact ⟨rfl, rfl⟩

/-- Settles O39, by the guard of the slot's record. -/
theorem expiryFollowsTheGuard : Obligations.ExpiryFollowsTheGuard := by
  intro s k hs
  refine ⟨fun r d hk hdue => ?_, fun h => next_whenRunning hs (State.expireSlot_of_not_due h)⟩
  refine ⟨s.expire k r d, next_whenRunning hs (State.expireSlot_of_due hk hdue), ?_⟩
  by_cases hguard : r.guard = 1
  · have hslots : (s.expire k r d).transit.slots = (s.setSlotState k (.expired r true)).transit.slots := by
      rw [State.expire_of_answer hguard, State.chooseOffer_transit, State.completeQuiesce_transit]
      rfl
    rw [hslots]
    refine ⟨by rw [State.slots_setSlotState, if_pos rfl],
      fun i hi => by rw [State.slots_setSlotState, if_neg hi], fun h => absurd hguard h,
      fun _ => ⟨by rw [State.slots_setSlotState, if_pos rfl], ?_⟩⟩
    rw [State.expire_of_answer hguard]
    exact ⟨State.quiesceAfter_completeQuiesce_chooseOffer rfl,
      State.completeQuiesce_chooseOffer_of_not_quiescing (p := s.answeredExpiry k r),
      (s.answeredExpiry k r).completeQuiesce_chooseOffer_frame⟩
  · rw [State.expire_of_watch hguard]
    exact ⟨by rw [State.slots_setSlotState, if_pos rfl],
      fun i hi => by rw [State.slots_setSlotState, if_neg hi],
      fun _ => ⟨by rw [State.slots_setSlotState, if_pos rfl], rfl⟩, fun h => absurd h hguard⟩

/-! ## MATCH of a late or a stray response (R129, R130) -/

/-- A response whose tag names an EXPIRED slot that owes nothing, with its epoch, is absorbed (R126, R129). -/
theorem State.matchWith_of_answered {s : State} {resp : MemResponse} {k : SlotId} {r : SlotRecord}
    (htag : resp.tag.toNat = 8 * k.val + s.transit.slots[k].epoch.toNat)
    (hk : s.transit.slots[k].state = .expired r false) : s.matchWith resp = s.absorb k r := by
  obtain ⟨rfl, hepoch⟩ := tag_of_toNat htag
  rw [State.matchWith, if_pos hepoch.symm, hk]

/-- A response whose tag names a FREE slot or an epoch the slot does not have is stray (R126, R130). -/
theorem State.matchWith_of_stray {s : State} {resp : MemResponse} {k : SlotId} {e : BitVec 3}
    (htag : resp.tag.toNat = 8 * k.val + e.toNat)
    (hk : s.transit.slots[k].state = .free ∨ s.transit.slots[k].epoch ≠ e) :
    s.matchWith resp = s.stray k resp := by
  obtain ⟨rfl, rfl⟩ := tag_of_toNat htag
  rw [State.matchWith]
  split
  · rename_i hepoch
    rw [hk.resolve_right fun hne => hne hepoch]
  · rfl

theorem State.absorb_frame (s : State) (k : SlotId) (r : SlotRecord) :
    s.absorb k r = { s.setSlotState k .free with
      ret.register := .empty
      stats.live := (s.countClass r.cls .lateResponses 1).stats.live
      alerts.saturation := (s.countClass r.cls .lateResponses 1).alerts.saturation
      incidents := (s.raise (slotIncident .lateResponse k r 1)).incidents } := by
  rw [State.absorb, State.raise_eq_of_same_queue (t := s)]
  all_goals rfl

/-- A stray response is discarded, counted and reported (R130). -/
theorem State.stray_eq {resp : MemResponse} {k : SlotId} {e : BitVec 3}
    (htag : resp.tag.toNat = 8 * k.val + e.toNat) (s : State) :
    s.stray k resp = ({ s with ret.register := .empty }.countGlobal .stray 1).raise
      ⟨.strayResponse, none, none, some k, none,
        BitVec.ofNat 32 (e.toNat + 256 * s.transit.slots[k].epoch.toNat
          + 65536 * slotCode s.transit.slots[k].state)⟩ := by
  rw [State.stray, (tag_of_toNat htag).2]
  rfl

theorem exec_matchResponse_of_not_unmatched {s : State} (hs : s.phase = .running)
    (h : ∀ x : MemResponse, s.ret.register ≠ .unmatched x) : exec .matchResponse s = .next s := by
  refine next_whenRunning hs ?_
  split
  · exact absurd ‹_› (h _)
  all_goals rfl

/-- Settles O42, by what the response's tag names. -/
theorem matchAbsorbsOrStrays : Obligations.MatchAbsorbsOrStrays := by
  intro s resp k hs
  refine ⟨fun r hr htag hk => ⟨s.absorb k r, ?_, ?_, fun i hi => ?_, ?_⟩, fun e hr htag hk => ?_,
    exec_matchResponse_of_not_unmatched hs⟩
  · rw [exec_matchResponse hs hr, State.matchWith_of_answered htag hk]
  · rw [State.absorb_frame, State.slots_setSlotState, if_pos rfl]
  · rw [State.absorb_frame, State.slots_setSlotState, if_neg hi]
  · rw [State.absorb_frame]
    rfl
  · rw [exec_matchResponse hs hr, State.matchWith_of_stray htag hk, State.stray_eq htag]

end Sys2Proof.Machine


namespace Sys2Proof.Machine

set_option Elab.async false

/-! ## Debts: the answer list, and the owners that owe an answer (R145, R146) -/

/-- The answer list, and which owners owe the fabric an answer: all that R146 is about. -/
@[ext] structure Debts where
  answers : List Owner
  owes : Owner → Bool

def State.debts (s : State) : Debts :=
  { answers := s.ret.answers, owes := fun o => (s.answerOf o).isSome }

/-- The list holds exactly the owners that owe, each once (R146). -/
structure Debts.Sound (d : Debts) : Prop where
  nodup : d.answers.Nodup
  mem : ∀ o : Owner, o ∈ d.answers ↔ d.owes o = true

theorem State.answersSound_iff {s : State} : s.AnswersSound ↔ s.debts.Sound :=
  ⟨fun ⟨hnodup, hmem⟩ => ⟨hnodup, hmem⟩, fun ⟨hnodup, hmem⟩ => ⟨hnodup, hmem⟩⟩

/-! ### Who owes -/

/-- A REJECTING intake owes the refusal (R59). -/
def IntakeState.owes : IntakeState → Bool
  | .rejecting _ _ _ => true
  | .empty | .stalled _ => false

/-- A CANCELLING entry owes CANCELLED (R34). -/
def HoldEntry.owes : HoldEntry → Bool
  | .cancelling _ => true
  | .free | .queued _ => false

/-- A LOST slot owes LOST, and an EXPIRED one may owe TIMEOUT (R118). -/
def SlotState.owes : SlotState → Bool
  | .expired _ owes => owes
  | .lost _ => true
  | .free | .inFlight _ _ _ => false

theorem State.owes_intake (s : State) : s.debts.owes .intake = s.intake.register.owes := by
  simp only [State.debts, State.answerOf]
  cases s.intake.register with
  | rejecting source tag owed => cases owed <;> rfl
  | _ => rfl

theorem State.owes_entry (s : State) (e : EntryId) : s.debts.owes (.entry e) = s.pool.entries[e].owes := by
  simp only [State.debts, State.answerOf]
  cases s.pool.entries[e] <;> rfl

theorem State.owes_slot (s : State) (k : SlotId) :
    s.debts.owes (.slot k) = s.transit.slots[k].state.owes := by
  simp only [State.debts, State.answerOf]
  cases s.transit.slots[k].state with
  | expired r owes => cases owes <;> rfl
  | _ => rfl

/-- A state's debts, owner by owner. -/
theorem State.debts_eq {s : State} {d : Debts} (hanswers : s.ret.answers = d.answers)
    (hintake : s.intake.register.owes = d.owes .intake)
    (hentry : ∀ e : EntryId, s.pool.entries[e].owes = d.owes (.entry e))
    (hslot : ∀ k : SlotId, s.transit.slots[k].state.owes = d.owes (.slot k)) : s.debts = d := by
  refine Debts.ext hanswers (funext fun o => ?_)
  cases o with
  | intake => rw [State.owes_intake, hintake]
  | entry e => rw [State.owes_entry, hentry]
  | slot k => rw [State.owes_slot, hslot]

theorem HoldEntry.owes_unflagged (x : HoldEntry) : x.unflagged.owes = x.owes := by
  cases x <;> rfl

@[simp] theorem HoldEntry.owes_dropMember (i : EntryId) (x : HoldEntry) : (x.dropMember i).owes = x.owes := by
  cases x <;> rfl

@[simp] theorem SlotState.owes_purge (x : SlotState) : x.purge.owes = x.owes := by
  cases x with
  | expired r owes => cases owes <;> rfl
  | _ => rfl

/-- At a memory link-down a slot in flight comes to owe LOST, and an owed TIMEOUT becomes LOST (R136). -/
theorem SlotState.owes_memoryDown (x : SlotState) : x.memoryDown.owes = (x.owes || x.isInFlight) := by
  cases x with
  | expired r owes => cases owes <;> rfl
  | _ => rfl

/-! ### How debts change -/

/-- The debts with one owner's changed, and the list as it was. -/
def Debts.set (d : Debts) (o : Owner) (b : Bool) : Debts := { d with owes := Function.update d.owes o b }

/-- Owners come to owe an answer and join the list's tail (R145). -/
def Debts.join (d : Debts) (owners : List Owner) : Debts :=
  { answers := d.answers ++ owners, owes := fun o => d.owes o || decide (o ∈ owners) }

/-- One owner's debt is settled: its reference leaves the list wherever it stands (R148, R149). -/
def Debts.settle (d : Debts) (o : Owner) : Debts :=
  { answers := d.answers.filter (fun x => decide (x ≠ o)), owes := Function.update d.owes o false }

/-- Nothing is owed (R153). -/
def Debts.nothing : Debts := { answers := [], owes := fun _ => false }

theorem Debts.set_of_same {d : Debts} {o : Owner} {b : Bool} (h : b = d.owes o) : d.set o b = d := by
  rw [Debts.set, Function.update_eq_self_iff.mpr h]

theorem Debts.Sound.nothing : Debts.nothing.Sound := ⟨List.nodup_nil, fun _ => by simp [Debts.nothing]⟩

/-- Owners that owed nothing join soundly (R145). -/
theorem Debts.Sound.join {d : Debts} (h : d.Sound) {owners : List Owner} (hnodup : owners.Nodup)
    (hnew : ∀ o ∈ owners, d.owes o = false) : (d.join owners).Sound where
  nodup := h.nodup.append hnodup fun o hlisted hjoins => by
    have howes := (h.mem o).mp hlisted
    rw [hnew o hjoins] at howes
    cases howes
  mem o := by simp [Debts.join, h.mem]

/-- An owner whose answer leaves or is withdrawn settles soundly (R148, R149). -/
theorem Debts.Sound.settle {d : Debts} (h : d.Sound) (o : Owner) : (d.settle o).Sound where
  nodup := h.nodup.filter _
  mem x := by by_cases hx : x = o <;> simp [Debts.settle, h.mem, hx]

/-! ### What each update makes of the debts -/

/-- The debts are read off the ledger. -/
theorem State.debts_of_ledger_eq {s t : State} (h : t.ledger = s.ledger) : t.debts = s.debts := by
  have hret : t.ret = s.ret := congrArg Ledger.ret h
  have hregister : t.intake.register = s.intake.register := congrArg Ledger.register h
  have hslots : t.transit.slots = s.transit.slots := congrArg Ledger.slots h
  refine State.debts_eq (congrArg ResponseReturn.answers hret) (by rw [State.owes_intake, hregister])
    (fun e => ?_) (fun k => by rw [State.owes_slot, hslots])
  rw [State.owes_entry, ← HoldEntry.owes_unflagged, State.entry_of_ledger_eq h, HoldEntry.owes_unflagged]

@[simp] theorem State.debts_chooseOffer (s : State) : s.chooseOffer.debts = s.debts := by
  rw [s.chooseOffer_eq.1]
  rfl

theorem State.debts_setIntake (s : State) (x : IntakeState) :
    (s.setIntake x).debts = s.debts.set .intake x.owes :=
  State.debts_eq rfl (by simp [Debts.set]) (fun e => by simp [Debts.set, State.owes_entry])
    (fun k => by simp [Debts.set, State.owes_slot])

theorem State.debts_setEntry (s : State) (e : EntryId) (v : HoldEntry) :
    (s.setEntry e v).debts = s.debts.set (.entry e) v.owes := by
  refine State.debts_eq rfl (by simp [Debts.set, State.owes_intake]) (fun i => ?_)
    (fun k => by simp [Debts.set, State.owes_slot])
  rw [State.setEntry_pool_entries, entries_set]
  by_cases hi : i = e <;> simp [Debts.set, State.owes_entry, hi]

/-- What an update of one slot makes of the debts, whatever it makes of the epoch. -/
theorem State.debts_setSlot (s : State) (k : SlotId) (v : Slot) :
    { s with transit.slots := s.transit.slots.set k v }.debts = s.debts.set (.slot k) v.state.owes := by
  refine State.debts_eq rfl (by simp [Debts.set, State.owes_intake])
    (fun e => by simp [Debts.set, State.owes_entry]) (fun i => ?_)
  dsimp only
  rw [slots_set]
  by_cases hi : i = k <;> simp [Debts.set, State.owes_slot, hi]

theorem State.debts_setSlotState (s : State) (k : SlotId) (v : SlotState) :
    (s.setSlotState k v).debts = s.debts.set (.slot k) v.owes :=
  s.debts_setSlot k { s.transit.slots[k] with state := v }

theorem State.debts_setSlotState_of_same {s : State} {k : SlotId} {v : SlotState}
    (h : v.owes = s.transit.slots[k].state.owes) : (s.setSlotState k v).debts = s.debts := by
  rw [State.debts_setSlotState, Debts.set_of_same (h.trans (s.owes_slot k).symm)]

theorem State.debts_setIntake_of_same {s : State} {x : IntakeState}
    (h : x.owes = s.intake.register.owes) : (s.setIntake x).debts = s.debts := by
  rw [State.debts_setIntake, Debts.set_of_same (h.trans s.owes_intake.symm)]

/-- With the fabric link DOWN nothing is owed (R153). -/
theorem State.FabricDownSound.debts {s : State} (hs : s.FabricDownSound) (hl : s.ret.link = .down) :
    s.debts = Debts.nothing := by
  obtain ⟨hr, he, -, hk, ha, -⟩ := hs hl
  refine State.debts_eq ha (by rw [hr]; rfl) (fun e => by rw [he]; rfl) (fun k => ?_)
  rcases hk k with hk | ⟨r, hk⟩ <;> rw [hk] <;> rfl

/-- As a reset leaves the part nothing is owed (R189). -/
theorem State.debts_of_reset {t : State} (hret : t.ret = State.reset.ret)
    (hintake : t.intake = State.reset.intake) (hpool : t.pool = State.reset.pool)
    (htransit : t.transit = State.reset.transit) : t.debts = Debts.nothing := by
  refine State.debts_eq (by rw [hret]; rfl) (by rw [hintake]; rfl) (fun e => ?_) (fun k => ?_)
  · rw [hpool, reset_entry]; rfl
  · rw [htransit, reset_slot]; rfl

end Sys2Proof.Machine


namespace Sys2Proof.Machine

set_option Elab.async false

/-! ## The events that leave the debts as they are -/

theorem State.Placed.debts {s t : State} {e : EntryId} {r : HoldRecord} (h : s.Placed e r t)
    (he : s.pool.entries[e] = .free) : t.debts = s.debts := by
  refine State.debts_eq (by rw [h.frame]; rfl) (by rw [h.frame, State.owes_intake]) (fun i => ?_)
    (fun k => by rw [h.frame, State.owes_slot])
  rw [State.owes_entry]
  by_cases hi : i = e
  · obtain ⟨flag, hflag⟩ := h.entry
    rw [hi, hflag, he]
    rfl
  · rw [← HoldEntry.owes_unflagged, h.others i hi, HoldEntry.owes_unflagged]

theorem State.debts_of_tryPlace {s t : State} {r : HoldRecord} (h : s.tryPlace r = some t) :
    t.debts = s.debts := by
  obtain ⟨e, he, hplaced⟩ := State.placed_of_tryPlace h
  exact hplaced.debts he

theorem State.debts_retryPlacement (s : State) : s.retryPlacement.debts = s.debts := by
  unfold State.retryPlacement
  split
  · rename_i q hq
    split
    · rename_i t ht
      calc (t.endStall q).debts
          = (t.setIntake .empty).debts := State.debts_of_ledger_eq rfl
        _ = t.debts := State.debts_setIntake_of_same (by rw [State.intake_of_tryPlace ht, hq]; rfl)
        _ = s.debts := State.debts_of_tryPlace ht
    · rfl
  all_goals rfl

theorem State.debts_reportStall (s : State) : s.reportStall.debts = s.debts := by
  unfold State.reportStall
  split
  · rename_i q hq
    split
    · rw [State.debts_of_ledger_eq (State.ledger_raise _ _), State.debts_setIntake_of_same]
      rw [hq]
      rfl
    · rfl
  all_goals rfl

theorem State.debts_acceptRequest {s : State} (hr : s.intake.register = .empty) (req : FabricRequest) :
    (s.acceptRequest req).debts = s.debts := by
  unfold State.acceptRequest
  split
  · exact State.debts_of_tryPlace ‹_›
  · exact State.debts_setIntake_of_same (by rw [hr]; rfl)

/-- A forwarding hands a request from its entry to a FREE slot: neither owes before or after (R109). -/
theorem State.debts_forwardHead {s : State} {c : ClassId} {e : EntryId} {r : HoldRecord} {k : SlotId}
    (he : s.pool.entries[e] = .queued r) (hk : s.transit.slots[k].state = .free) :
    (s.forwardHead c e r k).debts = s.debts := by
  have hallocate : (s.allocate k (s.slotRecordFor c r)).debts = s.debts :=
    (s.debts_setSlot k _).trans (Debts.set_of_same (by rw [State.owes_slot, hk]; rfl))
  have hfree : ((s.allocate k (s.slotRecordFor c r)).setEntry e .free).debts = s.debts := by
    rw [State.debts_setEntry, hallocate, Debts.set_of_same]
    rw [State.owes_entry, he]
    rfl
  rw [State.debts_of_ledger_eq (s.ledger_forwardHead c e r k), ← hfree]
  have hmap (v : Vector HoldEntry 192) (i : EntryId) :
      (v.map (HoldEntry.dropMember e))[i] = v[i].dropMember e := by simp
  refine State.debts_eq rfl (State.owes_intake _).symm (fun i => ?_) (fun i => (State.owes_slot _ i).symm)
  rw [State.owes_entry, State.removeHead_pool_entries, hmap, HoldEntry.owes_dropMember]
  rfl

theorem State.debts_forwardChoice (s : State) : s.forwardChoice.debts = s.debts := by
  unfold State.forwardChoice
  split
  · rename_i c _ _
    split
    · rename_i e k _ hk
      split
      · exact State.debts_forwardHead (s := s.movePointer c) ‹_› ((s.lowestFreeSlot_eq_some k).mp hk).1
      all_goals rfl
    · rfl
  · rfl

theorem State.debts_fabricLinkUp (s : State) : s.fabricLinkUp.debts = s.debts := by
  unfold State.fabricLinkUp
  split
  · rw [State.debts_of_ledger_eq (State.ledger_raise _ _)]
    rfl
  · rfl

theorem State.debts_takeResponse (s : State) (resp : MemResponse) :
    (s.takeResponse resp).debts = s.debts := by
  unfold State.takeResponse
  split <;> rfl

theorem State.debts_realLeaves (s : State) : s.realLeaves.debts = s.debts := by
  unfold State.realLeaves State.enterTotal
  split
  · rw [State.debts_chooseOffer]
    split <;> rfl
  · rfl

/-- PURGE frees only slots that owe nothing (R134). -/
theorem State.debts_takePurge (s : State) (argument : Byte) : (s.takePurge argument).debts = s.debts := by
  have hpurged : (s.mapSlots SlotState.purge).debts = s.debts :=
    State.debts_eq rfl (State.owes_intake s).symm (fun e => (State.owes_entry s e).symm) fun k => by
      rw [State.slots_mapSlots, SlotState.owes_purge, State.owes_slot]
  exact (State.debts_of_ledger_eq rfl).trans hpurged

theorem State.debts_takeDefaults (s : State) (argument : Byte) :
    (s.takeDefaults argument).debts = s.debts := by
  unfold State.takeDefaults
  split
  · rfl
  · split
    · rfl
    · split
      · rfl
      · exact State.debts_retryPlacement (s.restoreDefaults.done 12 argument 0)

/-! ## The events at which a debt is made or settled -/

/-- One owner comes to owe, and joins the list's tail (R145). -/
theorem State.debts_joinAnswers_singleton {s t : State} {o : Owner} (h : t.debts = s.debts.set o true) :
    (t.joinAnswers [o]).debts = s.debts.join [o] := by
  have hanswers : t.ret.answers = s.ret.answers := congrArg Debts.answers h
  refine Debts.ext (congrArg (· ++ [o]) hanswers) (funext fun x => ?_)
  have howes : (t.joinAnswers [o]).debts.owes x = (s.debts.set o true).owes x :=
    congrArg (fun d => d.owes x) h
  rw [howes]
  by_cases hx : x = o <;> simp [Debts.join, Debts.set, hx]

/-- A refused request makes the intake owe its refusal (R59, R63). -/
theorem State.debts_refuseRequest (s : State) (req : FabricRequest) (owed : RefusalStatus)
    (count : GlobalCounter) (body : IncidentBody) :
    (s.refuseRequest req owed count body).debts = s.debts.join [.intake] := by
  rw [State.refuseRequest, State.debts_chooseOffer,
    State.debts_of_ledger_eq ((State.ledger_raise _ _).trans (State.ledger_countGlobal _ _ _))]
  exact State.debts_joinAnswers_singleton (s.debts_setIntake (.rejecting req.source req.tag owed))

/-- An expiry under ANSWER makes the slot owe TIMEOUT, and under WATCH nothing is owed (R123, R124). -/
theorem State.debts_expire {s : State} {k : SlotId} {r : SlotRecord} {d : Time}
    (hk : s.transit.slots[k].state = .inFlight r (some d) false) :
    (s.expire k r d).debts = if r.answers then s.debts.join [.slot k] else s.debts := by
  unfold State.expire
  dsimp only
  split
  · rw [State.debts_chooseOffer,
      State.debts_of_ledger_eq ((State.ledger_completeQuiesce _).trans (State.ledger_raise _ _))]
    exact State.debts_joinAnswers_singleton
      (State.debts_setSlotState (s.countClass r.cls .timeouts 1) k (.expired r true))
  · have hwatched : (s.setSlotState k (.inFlight r (some d) true)).debts = s.debts :=
      State.debts_setSlotState_of_same (by rw [hk]; rfl)
    exact (State.debts_of_ledger_eq ((State.ledger_raise _ _).trans rfl)).trans hwatched

/-- Discarding a queue makes its QUEUED entries owe CANCELLED (R34). -/
theorem State.owes_foldl_cancelEntry (q : List EntryId) (s : State) (e : EntryId) :
    (q.foldl State.cancelEntry s).pool.entries[e].owes
      = (s.pool.entries[e].owes || (s.pool.entries[e].isQueued && decide (e ∈ q))) := by
  rw [State.foldl_cancelEntry_entry]
  cases s.pool.entries[e] with
  | queued r => by_cases hq : e ∈ q <;> simp [HoldEntry.owes, HoldEntry.isQueued, hq]
  | _ => rfl

/-- A discard makes the queue's entries owe CANCELLED, where they were QUEUED (R34). -/
theorem State.debts_takeDiscard {s : State} {n : ClassId}
    (hqueued : ∀ e ∈ s.pool.queues[n], s.pool.entries[e].isQueued = true) (argument : Byte) :
    (s.takeDiscard argument n).debts = s.debts.join (s.pool.queues[n].map .entry) := by
  have hframe := State.foldl_cancelEntry_frame s.pool.queues[n] s
  rw [State.takeDiscard, State.debts_chooseOffer, State.debts_of_ledger_eq ((State.ledger_done _ _ _ _).trans
    ((State.ledger_noteBudgetWaits _).trans (State.ledger_countClass _ _ _ _)))]
  refine State.debts_eq (by rw [hframe]; rfl) ?_ (fun e => ?_) (fun k => ?_)
  · rw [hframe]
    simp [Debts.join, State.owes_intake, State.setQueue]
  · have hmem : Owner.entry e ∈ s.pool.queues[n].map Owner.entry ↔ e ∈ s.pool.queues[n] :=
      List.mem_map_of_injective fun _ _ => Owner.entry.inj
    rw [State.joinAnswers_pool, State.setQueue_pool_entries, State.owes_foldl_cancelEntry]
    dsimp only [Debts.join]
    rw [State.owes_entry, decide_eq_decide.mpr hmem]
    by_cases hq : e ∈ s.pool.queues[n]
    · rw [hqueued e hq, Bool.true_and]
    · rw [decide_eq_false hq, Bool.and_false]
  · rw [hframe]
    simp [Debts.join, State.owes_slot, State.setQueue]

/-- The slots that join the list at a memory link-down are those in flight (R136). -/
theorem State.mem_lostOrder {s : State} (hs : s.OrderSound) (o : Owner) :
    o ∈ s.lostOrder ↔ ∃ k : SlotId, s.transit.slots[k].state.isInFlight = true ∧ .slot k = o := by
  obtain ⟨-, hlists⟩ := hs
  simp only [State.lostOrder, List.mem_map, List.mem_filter]
  exact exists_congr fun k => and_congr_left fun _ => and_iff_right_of_imp (hlists k)

theorem State.lostOrder_nodup {s : State} (hs : s.OrderSound) : s.lostOrder.Nodup := by
  obtain ⟨hnodup, -⟩ := hs
  exact (hnodup.filter _).map fun _ _ => Owner.slot.inj

/-- A memory link-down makes every slot in flight owe LOST (R136). -/
theorem State.debts_memoryLinkDown {s : State} (hs : s.OrderSound) (hm : s.mem.link ≠ .down) :
    s.memoryLinkDown.debts = s.debts.join s.lostOrder := by
  obtain ⟨p, heq, hp⟩ := s.memoryLinkDown_joined hm
  rw [heq, State.debts_chooseOffer, State.debts_of_ledger_eq hp]
  refine State.debts_eq rfl ?_ (fun e => ?_) (fun k => ?_)
  · simp [Debts.join, State.mem_lostOrder hs, State.owes_intake, State.mapSlots]
  · simp [Debts.join, State.mem_lostOrder hs, State.owes_entry, State.mapSlots]
  · rw [State.joinAnswers_transit, State.slots_mapSlots, SlotState.owes_memoryDown]
    simp [Debts.join, State.mem_lostOrder hs, State.owes_slot]

/-- A supersede withdraws the slot's answer with its debt (R128, R149). -/
theorem State.debts_supersede (s : State) (k : SlotId) (r : SlotRecord) (resp : MemResponse) :
    (s.supersede k r resp).debts = s.debts.settle (.slot k) := by
  obtain ⟨p, heq, hp⟩ := s.ledger_supersede k r resp
  rw [heq, State.debts_chooseOffer, State.debts_of_ledger_eq hp]
  exact Debts.ext rfl (congrArg Debts.owes ((s.withdrawAnswer k).debts_setSlotState k .free))

/-- The owner of an answer that leaves owes nothing more, and no other owner's debt changes (R148). -/
theorem State.debts_ownerAnswered {s : State} {o : Owner} (h : (s.answerOf o).isSome = true) :
    (s.ownerAnswered o).debts = s.debts.set o false := by
  cases o with
  | intake => rw [State.ownerAnswered_intake h]; exact s.debts_setIntake .empty
  | entry e => rw [State.ownerAnswered_entry h]; exact s.debts_setEntry e .free
  | slot k =>
    rw [State.ownerAnswered_slot h, State.debts_setSlotState]
    cases s.transit.slots[k].state <;> rfl

/-- An answer that leaves settles the debt of the list's head (R148). -/
theorem State.debts_answerLeaves {s : State} {o : Owner} {rest : List Owner} (hs : s.debts.Sound)
    (hc : s.ret.channel = .answer) (ha : s.ret.answers = o :: rest) :
    s.answerLeaves.debts = s.debts.settle o := by
  have hanswers : s.debts.answers = o :: rest := ha
  have howes : (s.answerOf o).isSome = true := (hs.mem o).mp (by rw [hanswers]; exact List.mem_cons_self)
  have hrest : o ∉ rest := (List.nodup_cons.mp (hanswers ▸ hs.nodup)).1
  rw [State.answerLeaves, hc, ha]
  dsimp only
  rw [State.debts_chooseOffer, State.debts_ownerAnswered (by exact howes)]
  refine Debts.ext ?_ rfl
  have hstay : rest.filter (fun x => decide (x ≠ o)) = rest :=
    List.filter_eq_self.mpr fun x hx => decide_eq_true fun hxo => hrest (hxo ▸ hx)
  rw [Debts.settle, hanswers, List.filter_cons_of_neg (by simp), hstay]
  rfl

end Sys2Proof.Machine


namespace Sys2Proof.Machine

set_option Elab.async false

/-! ## The answer list at every step (R145, R146) -/

/-- The lists from which owners join the answer list: each class queue holds QUEUED entries, each once, and the
forwarding order lists the slots in flight (R22, R136). -/
structure State.JoinersListed (s : State) : Prop where
  queue_nodup : ∀ c : ClassId, s.pool.queues[c].Nodup
  queued : ∀ c : ClassId, ∀ e ∈ s.pool.queues[c], s.pool.entries[e].isQueued = true
  flights : s.OrderSound

theorem State.JoinersListed.of_placedInOrder {s : State} {order : List EntryId} (h : s.PlacedInOrder order)
    (hflights : s.OrderSound) : s.JoinersListed where
  queue_nodup c := (State.placedInOrder_iff.mp h).queue_nodup c
  queued c e he := by
    obtain ⟨-, hmem, hqueues, -⟩ := h
    rw [hqueues] at he
    exact (hmem e).mp (List.mem_of_mem_filter he)
  flights := hflights

/-- From `s` to `t` the answer list's rule goes on holding. -/
def State.KeepsAnswers (s t : State) : Prop := s.JoinersListed → s.debts.Sound → t.debts.Sound

theorem State.KeepsAnswers.of_debts_eq {s t : State} (h : t.debts = s.debts) : s.KeepsAnswers t :=
  fun _ hs => h ▸ hs

theorem State.KeepsAnswers.of_ledger_eq {s t : State} (h : t.ledger = s.ledger) : s.KeepsAnswers t :=
  .of_debts_eq (State.debts_of_ledger_eq h)

theorem State.KeepsAnswers.refl (s : State) : s.KeepsAnswers s := fun _ => id

theorem State.KeepsAnswers.of_dissolved {s t : State} (h : t.debts = Debts.nothing) : s.KeepsAnswers t :=
  fun _ _ => h ▸ .nothing

/-- Before the event an update that leaves the pool, the transit table and the debts alone. -/
theorem State.KeepsAnswers.after {s t u : State} (h : t.KeepsAnswers u) (hpool : t.pool = s.pool)
    (htransit : t.transit = s.transit) (hdebts : t.debts = s.debts) : s.KeepsAnswers u := by
  rintro ⟨hnodup, hqueued, hflights⟩ hs
  refine h ⟨?_, ?_, ?_⟩ (hdebts ▸ hs)
  · rwa [hpool]
  · rwa [hpool]
  · rwa [State.OrderSound, htransit]

/-- An owner that owed nothing joins alone (R145). -/
theorem State.KeepsAnswers.of_joined {s t : State} {o : Owner} (h : t.debts = s.debts.join [o])
    (hnew : s.debts.owes o = false) : s.KeepsAnswers t :=
  fun _ hs => h ▸ hs.join (List.nodup_singleton o) fun _ hx => List.mem_singleton.mp hx ▸ hnew

/-! ### Links, the intake and deadlines -/

theorem State.fabricLinkDown_keepsAnswers (s : State) : s.KeepsAnswers s.fabricLinkDown := by
  cases hl : s.ret.link with
  | down => rw [State.fabricLinkDown, hl]; exact .refl s
  | up =>
    have hdown := (s.fabricLinkDown_keepsFabricPort (.of_up hl)).1
    exact .of_dissolved (hdown.debts (congrArg (fun l => l.ret.link) (State.ledger_fabricLinkDown hl)))

/-- A slot in flight owes nothing, so those that a memory link-down loses join soundly (R136). -/
theorem State.memoryLinkDown_keepsAnswers (s : State) : s.KeepsAnswers s.memoryLinkDown := by
  by_cases hm : s.mem.link = .down
  · rw [State.memoryLinkDown, hm]; exact .refl s
  · intro hlisted hs
    rw [State.debts_memoryLinkDown hlisted.flights hm]
    refine hs.join (State.lostOrder_nodup hlisted.flights) fun o ho => ?_
    obtain ⟨k, hk, rfl⟩ := (State.mem_lostOrder hlisted.flights o).mp ho
    rw [State.owes_slot]
    cases hx : s.transit.slots[k].state with
    | inFlight r d overdue => rfl
    | _ => rw [hx] at hk; cases hk

theorem State.arrive_keepsAnswers (s : State) (req : FabricRequest) : s.KeepsAnswers (s.arrive req) := by
  rcases s.arrive_cases req with h | ⟨hr, owed, count, body, h⟩ | ⟨hr, -, -, h⟩ <;> rw [h]
  · exact .refl s
  · exact .of_joined (s.debts_refuseRequest req owed count body) (by rw [State.owes_intake, hr]; rfl)
  · exact .of_debts_eq (State.debts_acceptRequest hr req)

theorem State.expireSlot_keepsAnswers (s : State) (k : SlotId) : s.KeepsAnswers (s.expireSlot k) := by
  unfold State.expireSlot
  split
  · rename_i r d hk
    split
    · have hexpire := State.debts_expire hk
      cases hr : r.answers with
      | true => exact .of_joined (hexpire.trans (if_pos hr)) (by rw [State.owes_slot, hk]; rfl)
      | false => exact .of_debts_eq (hexpire.trans (if_neg (by simp [hr])))
    · exact .refl s
  all_goals exact .refl s

/-! ### The match, and what leaves -/

theorem State.supersede_keepsAnswers (s : State) (k : SlotId) (r : SlotRecord) (resp : MemResponse) :
    s.KeepsAnswers (s.supersede k r resp) :=
  fun _ hs => s.debts_supersede k r resp ▸ hs.settle _

theorem State.debts_stray (s : State) (k : SlotId) (resp : MemResponse) : (s.stray k resp).debts = s.debts :=
  (State.debts_of_ledger_eq (s.ledger_stray k resp)).trans rfl

theorem State.debts_complete {s : State} {k : SlotId} {r : SlotRecord} {d : Option Time} {overdue : Bool}
    (hk : s.transit.slots[k].state = .inFlight r d overdue) (resp : MemResponse) :
    (s.complete k r overdue resp).debts = s.debts := by
  obtain ⟨p, heq, hp⟩ := s.ledger_complete k r overdue resp
  have hfreed : (s.setSlotState k .free).debts = s.debts :=
    State.debts_setSlotState_of_same (by rw [hk]; rfl)
  rw [heq, State.debts_chooseOffer, State.debts_of_ledger_eq hp, ← hfreed]
  rfl

theorem State.debts_absorb {s : State} {k : SlotId} {r : SlotRecord}
    (hk : s.transit.slots[k].state = .expired r false) : (s.absorb k r).debts = s.debts := by
  have hfreed : (s.setSlotState k .free).debts = s.debts :=
    State.debts_setSlotState_of_same (by rw [hk]; rfl)
  rw [State.debts_of_ledger_eq (s.ledger_absorb k r), ← hfreed]
  rfl

theorem State.matchWith_keepsAnswers (s : State) (resp : MemResponse) : s.KeepsAnswers (s.matchWith resp) := by
  unfold State.matchWith
  dsimp only
  split
  · split
    · exact .of_debts_eq (State.debts_complete ‹_› resp)
    · exact s.supersede_keepsAnswers _ _ _
    · exact s.supersede_keepsAnswers _ _ _
    · exact .of_debts_eq (State.debts_absorb ‹_›)
    · exact .of_debts_eq (s.debts_stray _ resp)
  · exact .of_debts_eq (s.debts_stray _ resp)

theorem State.answerLeaves_keepsAnswers (s : State) : s.KeepsAnswers s.answerLeaves := by
  intro _ hs
  by_cases h : s.ret.channel ≠ .answer ∨ s.ret.answers = []
  · rw [State.answerLeaves_of_not_offering h]
    exact hs
  · obtain ⟨hc, ha⟩ := not_or.mp h
    obtain ⟨o, rest, hcons⟩ := List.exists_cons_of_ne_nil ha
    rw [State.debts_answerLeaves hs (not_not.mp hc) hcons]
    exact hs.settle o

/-! ### Commands and fields -/

/-- The entries of a discarded queue are QUEUED, so they owe nothing before they join (R34). -/
theorem State.takeDiscard_keepsAnswers (argument : Byte) (n : ClassId) (s : State) :
    s.KeepsAnswers (s.takeDiscard argument n) := by
  intro hlisted hs
  rw [State.debts_takeDiscard (hlisted.queued n)]
  refine hs.join ((hlisted.queue_nodup n).map fun _ _ => Owner.entry.inj) fun o ho => ?_
  obtain ⟨e, he, rfl⟩ := List.mem_map.mp ho
  have hqueued := hlisted.queued n e he
  rw [State.owes_entry]
  cases hx : s.pool.entries[e] with
  | queued r => rfl
  | _ => rw [hx] at hqueued; cases hqueued

theorem State.command_keepsAnswers (s : State) (code argument : Byte) {owner : State → State}
    (h : ∀ t : State, t.KeepsAnswers (owner t)) : s.KeepsAnswers (s.command code argument owner) := by
  unfold State.command
  split
  · exact .of_ledger_eq rfl
  · exact (h _).after rfl rfl rfl

theorem State.classCommand_keepsAnswers (s : State) (code argument : Byte)
    {owner : ClassId → State → State} (h : ∀ (n : ClassId) (t : State), t.KeepsAnswers (owner n t)) :
    s.KeepsAnswers (s.classCommand code argument owner) := by
  refine s.command_keepsAnswers code argument fun t => ?_
  split
  · exact h _ t
  · exact .of_ledger_eq rfl

/-- A write of the command register keeps the answer list's rule, whatever its code (R184). -/
theorem State.writeCommand_keepsAnswers (s : State) (code b : Byte) :
    s.KeepsAnswers (s.writeCommand code b) := by
  unfold State.writeCommand
  split
  · exact s.command_keepsAnswers 1 b fun t => .of_ledger_eq (t.ledger_takeQuiesce b)
  · exact s.command_keepsAnswers 2 b fun t => .of_ledger_eq (t.ledger_takeResume b)
  · exact s.command_keepsAnswers 3 b fun _ => .of_ledger_eq rfl
  · exact s.classCommand_keepsAnswers 4 b fun n t => .of_ledger_eq (t.ledger_takeCommit b n)
  · exact s.classCommand_keepsAnswers 5 b fun n t => .of_ledger_eq (t.ledger_takeApply b n)
  · exact s.classCommand_keepsAnswers 6 b fun n t => t.takeDiscard_keepsAnswers b n
  · exact s.command_keepsAnswers 7 b fun t => .of_debts_eq (t.debts_takePurge b)
  · exact s.command_keepsAnswers 8 b fun t => .of_ledger_eq (t.ledger_takeSnapshotCommand b)
  · exact s.command_keepsAnswers 9 b fun t => .of_ledger_eq (t.ledger_takeRelease b)
  · exact s.command_keepsAnswers 10 b fun _ => .of_ledger_eq rfl
  · exact s.command_keepsAnswers 11 b fun _ => .of_ledger_eq rfl
  · exact s.command_keepsAnswers 12 b fun t => .of_debts_eq (t.debts_takeDefaults b)
  · exact s.command_keepsAnswers code b fun _ => .of_ledger_eq rfl

theorem State.takeField_keepsAnswers (s : State) (f : Field) (bytes : List Byte) :
    s.KeepsAnswers (s.takeField f bytes) := by
  cases f
  case stallLimit => exact .of_debts_eq (State.debts_reportStall { s with intake.stallLimit := _ })
  case boundaries => exact .of_ledger_eq (s.ledger_writeBoundaries _)
  case command => exact s.writeCommand_keepsAnswers _ _
  case shadowEntry e => exact .of_ledger_eq (s.ledger_writeShadow e _)
  all_goals exact .of_ledger_eq rfl

theorem State.writeByte_keepsAnswers (s : State) (f : Field) (i : Nat) (b : Byte) :
    s.KeepsAnswers (s.writeByte f i b) := by
  unfold State.writeByte
  split
  · split
    · split
      · exact (State.takeField_keepsAnswers _ f _).after rfl rfl rfl
      · exact .of_ledger_eq rfl
    · exact .of_ledger_eq rfl
  · exact .of_ledger_eq rfl

theorem State.windowWrite_keepsAnswers (s : State) (b : Byte) : s.KeepsAnswers (s.windowWrite b) := by
  unfold State.windowWrite
  split
  · cases fieldAt s.port.offset with
    | none => exact .of_ledger_eq rfl
    | some p =>
      have hwrite : s.KeepsAnswers ({ s with port.ack := true }.writeByte p.1 p.2 b) :=
        (State.writeByte_keepsAnswers _ p.1 p.2 b).after rfl rfl rfl
      exact hwrite
  all_goals exact .refl s

/-! ### Every command -/

theorem keepsAnswers_of_whenRunning {s t : State} {f : State → State}
    (h : (.next (s.whenRunning f) : Host.Outcome State Fault Refusal) = .next t)
    (hf : s.KeepsAnswers (f s)) : s.KeepsAnswers t :=
  of_whenRunning s.KeepsAnswers h (.refl s) hf

theorem quietDebts_of_whenRunning {s t : State} {f : State → State}
    (h : (.next (s.whenRunning f) : Host.Outcome State Fault Refusal) = .next t)
    (hf : (f s).debts = s.debts) : s.KeepsAnswers t :=
  keepsAnswers_of_whenRunning h (.of_debts_eq hf)

theorem quietLedger_of_whenRunning {s t : State} {f : State → State}
    (h : (.next (s.whenRunning f) : Host.Outcome State Fault Refusal) = .next t)
    (hf : (f s).ledger = s.ledger) : s.KeepsAnswers t :=
  keepsAnswers_of_whenRunning h (.of_ledger_eq hf)

theorem exec_keepsAnswers {c : Instr} {s t : State} (h : exec c s = .next t) : s.KeepsAnswers t := by
  cases c
  case powerOnReset => cases h; exact .of_dissolved (State.debts_of_reset rfl rfl rfl rfl)
  case resetNAssertion lowNs =>
    simp only [exec, execResetNAssertion] at h
    split at h
    · cases h; exact .refl s
    · exact keepsAnswers_of_whenRunning h (.of_dissolved (State.debts_of_reset rfl rfl rfl rfl))
  case resetEnd straps =>
    cases h
    split
    · exact .refl s
    all_goals exact .of_ledger_eq rfl
  case fabricLinkUp => exact quietDebts_of_whenRunning h s.debts_fabricLinkUp
  case fabricLinkDown => exact keepsAnswers_of_whenRunning h s.fabricLinkDown_keepsAnswers
  case memoryLinkUp => exact quietLedger_of_whenRunning h s.ledger_memoryLinkUp
  case memoryLinkDown => exact keepsAnswers_of_whenRunning h s.memoryLinkDown_keepsAnswers
  case creditGrant m => exact quietLedger_of_whenRunning h (s.ledger_creditGrant _)
  case creditReturn m => exact quietLedger_of_whenRunning h (s.ledger_creditReturn _)
  case fabricRequestArrival req => exact keepsAnswers_of_whenRunning h (s.arrive_keepsAnswers req)
  case placementRetry => exact quietDebts_of_whenRunning h s.debts_retryPlacement
  case intakeStall => exact quietDebts_of_whenRunning h s.debts_reportStall
  case periodBoundary cls =>
    refine quietLedger_of_whenRunning h ?_
    split
    · exact s.ledger_takeBoundary cls false
    · rfl
  case forwarding => exact quietDebts_of_whenRunning h s.debts_forwardChoice
  case deadlineExpiry slot => exact keepsAnswers_of_whenRunning h (s.expireSlot_keepsAnswers slot)
  case memoryResponseTaken resp => exact quietDebts_of_whenRunning h (s.debts_takeResponse resp)
  case matchResponse =>
    refine keepsAnswers_of_whenRunning h ?_
    split
    · exact s.matchWith_keepsAnswers _
    all_goals exact .refl s
  case quiesceCompletion => exact quietLedger_of_whenRunning h s.ledger_completeQuiesce
  case realResponseLeaves => exact quietDebts_of_whenRunning h s.debts_realLeaves
  case answerLeaves => exact keepsAnswers_of_whenRunning h s.answerLeaves_keepsAnswers
  case autoSnapshotExpiry =>
    refine quietLedger_of_whenRunning h ?_
    split
    · exact s.ledger_autoExpiry
    · rfl
  case i2cAddress address direction =>
    exact quietLedger_of_whenRunning h (s.ledger_i2cAddress address direction)
  case offsetWrite high low => exact quietLedger_of_whenRunning h (s.ledger_offsetWrite high low)
  case windowWrite byte => exact keepsAnswers_of_whenRunning h (s.windowWrite_keepsAnswers byte)
  case fieldLatch =>
    refine quietLedger_of_whenRunning h ?_
    split
    · exact s.ledger_sendAt _
    all_goals rfl
  case incidentHeadLatch | incidentHeadRemove => exact quietLedger_of_whenRunning h (s.ledger_sendAt _)
  case shadowEntryWrite index value => exact quietLedger_of_whenRunning h (s.ledger_writeShadow index value)
  case stallLimitWrite value =>
    exact quietDebts_of_whenRunning h (State.debts_reportStall { s with intake.stallLimit := value })
  case histogramBoundariesWrite values =>
    exact quietLedger_of_whenRunning h (s.ledger_writeBoundaries values)
  case quiesce b => exact keepsAnswers_of_whenRunning h (s.writeCommand_keepsAnswers 1 b)
  case resume b => exact keepsAnswers_of_whenRunning h (s.writeCommand_keepsAnswers 2 b)
  case mapSwap b => exact keepsAnswers_of_whenRunning h (s.writeCommand_keepsAnswers 3 b)
  case classCommit b => exact keepsAnswers_of_whenRunning h (s.writeCommand_keepsAnswers 4 b)
  case classApply b => exact keepsAnswers_of_whenRunning h (s.writeCommand_keepsAnswers 5 b)
  case classDiscard b => exact keepsAnswers_of_whenRunning h (s.writeCommand_keepsAnswers 6 b)
  case purge b => exact keepsAnswers_of_whenRunning h (s.writeCommand_keepsAnswers 7 b)
  case snapshot b => exact keepsAnswers_of_whenRunning h (s.writeCommand_keepsAnswers 8 b)
  case snapshotRelease b => exact keepsAnswers_of_whenRunning h (s.writeCommand_keepsAnswers 9 b)
  case statsClear b => exact keepsAnswers_of_whenRunning h (s.writeCommand_keepsAnswers 10 b)
  case incidentsClear b => exact keepsAnswers_of_whenRunning h (s.writeCommand_keepsAnswers 11 b)
  case defaults b => exact keepsAnswers_of_whenRunning h (s.writeCommand_keepsAnswers 12 b)
  case unknownCommandCode code b => exact keepsAnswers_of_whenRunning h (s.writeCommand_keepsAnswers code b)
  case sendCompletion | transferEnd | stagedSettingWrite | defaultClassWrite | autoSnapshotIntervalWrite
      | alertFlagsWrite | alertEnablesWrite | timeCountAdvance => exact quietDebts_of_whenRunning h rfl

/-- Settles O12: an event leaves the debts as they are, lets owners that owed nothing join, settles one owner's
debt, or dissolves them all. -/
theorem answerListKept : Obligations.AnswerListKept := by
  intro s t order horder hflights hs h
  unfold step at h
  split at h
  · cases h
    exact hs
  · have hkeeps : s.KeepsAnswers t := (exec_keepsAnswers h).after rfl rfl rfl
    exact State.answersSound_iff.mpr
      (hkeeps (.of_placedInOrder horder hflights) (State.answersSound_iff.mp hs))

end Sys2Proof.Machine


/-! # The observers: what the part counts, records and shows -/

namespace Sys2Proof.Machine

set_option Elab.async false

/-! ## The observers of a state -/

/-- The statistics, the incident queue, and the latch and assembly of the management port, with the clock that
the interval starts by: most updates leave all of it. -/
structure Observers where
  time : Time
  stats : Statistics
  incidents : IncidentQueue
  latch : Option (Field × List Byte)
  assembly : Option (Field × List Byte)
  bus : BusState

/-- The observers of a state. -/
def State.observers (s : State) : Observers :=
  { time := s.time, stats := s.stats, incidents := s.incidents, latch := s.port.latch
    assembly := s.port.assembly, bus := s.port.bus }

@[simp] theorem State.observers_chooseOffer (s : State) : s.chooseOffer.observers = s.observers := by
  rw [s.chooseOffer_eq.1]
  rfl

@[simp] theorem State.observers_completeQuiesce (s : State) :
    s.completeQuiesce.observers = s.observers := by
  unfold State.completeQuiesce
  split
  · split <;> rfl
  all_goals rfl

/-! ## The incident queue (R169, R171) -/

theorem State.IncidentsSound.of_eq {s t : State} (h : t.incidents = s.incidents) (hs : s.IncidentsSound) :
    t.IncidentsSound := by
  unfold State.IncidentsSound
  rw [h]
  exact hs

/-- An empty queue without a mark is sound, whatever the sequence counter (R173). -/
theorem State.IncidentsSound.of_empty {s : State} (hrecords : s.incidents.records = [])
    (hmark : s.incidents.headMark = false) : s.IncidentsSound := by
  simp [State.IncidentsSound, hrecords, hmark]

/-- The neighbours in a list that one element joins are the earlier neighbours, and its last with the new
one. -/
theorem mem_zip_tail_append_singleton {α : Type} {l : List α} {a : α} {p : α × α}
    (h : p ∈ (l ++ [a]).zip (l ++ [a]).tail) : p ∈ l.zip l.tail ∨ l.getLast? = some p.1 ∧ p.2 = a := by
  induction l with
  | nil => simp at h
  | cons x l ih =>
    cases l with
    | nil =>
      obtain rfl : p = (x, a) := by simpa using h
      simp
    | cons y l =>
      have hsplit : p = (x, y) ∨ p ∈ ((y :: l) ++ [a]).zip ((y :: l) ++ [a]).tail := by simpa using h
      rcases hsplit with rfl | hlater
      · simp
      · refine (ih hlater).imp (fun hmem => ?_) (fun hlast => ?_)
        · exact List.mem_cons_of_mem _ hmem
        · simpa using hlast

/-- The neighbours in a list's tail are neighbours in the list. -/
theorem mem_zip_tail_of_tail {α : Type} {l : List α} {p : α × α} (h : p ∈ l.tail.zip l.tail.tail) :
    p ∈ l.zip l.tail := by
  match l with
  | [] | [_] => simp at h
  | x :: y :: l => exact List.mem_cons_of_mem _ h

/-- An incident that the queue takes, and one that it drops, leave the sequence numbers in agreement with the
gaps (R171). -/
theorem State.IncidentsSound.raise {s : State} (hs : s.IncidentsSound) (body : IncidentBody) :
    (s.raise body).IncidentsSound := by
  obtain ⟨hlength, hmark, hgaps, hlast⟩ := hs
  unfold State.raise
  split
  · rename_i hroom
    refine ⟨?_, fun _ => by simp, fun p hp hgap => ?_, fun i hi _ => ?_⟩
    · have : s.incidents.records.length < 32 := hroom
      simpa using this
    · rcases mem_zip_tail_append_singleton hp with hearlier | ⟨hbefore, hnew⟩
      · exact hgaps p hearlier hgap
      · rw [hnew] at hgap ⊢
        exact hlast p.1 hbefore hgap
    · obtain rfl := Option.some.inj (List.getLast?_concat.symm.trans hi)
      simp
  · refine ⟨hlength, hmark, hgaps, fun i hi hdrop => ?_⟩
    by_cases hfull : s.incidents.dropCount = 65535
    · simp [hfull] at hdrop
    · have hbefore := hlast i hi hfull
      simp only [if_neg hfull]
      rw [hbefore, BitVec.add_assoc i.sequence]

/-- The head record, read to its end, leaves the rest in agreement (R172). -/
theorem State.IncidentsSound.removeHeadRecord {s : State} (hs : s.IncidentsSound) :
    s.removeHeadRecord.IncidentsSound := by
  have ⟨hlength, _, hgaps, hlast⟩ := hs
  unfold State.removeHeadRecord
  split
  · refine ⟨?_, nofun, fun p hp => hgaps p (mem_zip_tail_of_tail hp), fun i hi => hlast i ?_⟩
    · simp only [List.length_tail]
      omega
    · have htail : s.incidents.records.tail.getLast? = some i := hi
      rw [List.getLast?_tail] at htail
      split at htail
      · cases htail
      · exact htail
  · exact hs

/-! ## The histogram boundaries (R160) -/

theorem State.BoundariesSound.of_eq {s t : State} (h : t.stats.boundaries = s.stats.boundaries)
    (hs : s.BoundariesSound) : t.BoundariesSound := by
  unfold State.BoundariesSound
  rw [h]
  exact hs

theorem State.BoundariesSound.of_reset {s : State} (h : s.stats.boundaries = resetBoundaries) :
    s.BoundariesSound := by
  unfold State.BoundariesSound
  rw [h]
  decide

/-- Where no boundary fails they ascend from at least 1 (R160). -/
theorem State.BoundariesSound.of_not_fails {s : State}
    (h : ∀ i : Fin 7, ¬ BoundaryFails s.stats.boundaries i) : s.BoundariesSound := by
  refine ⟨?_, fun i => ?_⟩
  · have hfirst : s.stats.boundaries[0] ≠ 0 := mt (boundaryFails_first _).mpr (h 0)
    exact Nat.one_le_iff_ne_zero.mpr fun h0 => hfirst (BitVec.eq_of_toNat_eq h0)
  · have hlater := mt (boundaryFails_later s.stats.boundaries (i := i.succ) (by simp)).mpr (h i.succ)
    simpa using hlater

theorem not_fails_of_firstFailingBoundary {b : Vector (BitVec 16) 7} (h : firstFailingBoundary b = none)
    (i : Fin 7) : ¬ BoundaryFails b i := by
  rw [firstFailingBoundary, Option.map_eq_none_iff, List.find?_eq_none] at h
  exact mt (boundaryCheck_iff b i).mpr (h i (List.mem_finRange i))

/-! ## The field latch and the write assembly (R181, R182) -/

theorem State.PortSound.of_eq {s t : State} (hlatch : t.port.latch = s.port.latch)
    (hassembly : t.port.assembly = s.port.assembly) (hbus : t.port.bus = s.port.bus) (hs : s.PortSound) :
    t.PortSound := by
  unfold State.PortSound
  rw [hlatch, hassembly, hbus]
  exact hs

/-- With the assembly discarded only the latch is left to be sound. -/
theorem State.PortSound.of_no_assembly {s t : State} (hlatch : t.port.latch = s.port.latch)
    (hassembly : t.port.assembly = none) (hs : s.PortSound) : t.PortSound := by
  refine ⟨fun f bytes h => hs.1 f bytes (hlatch ▸ h), fun f bytes h => ?_⟩
  rw [hassembly] at h
  cases h

theorem State.PortSound.of_clear {s : State} (hlatch : s.port.latch = none)
    (hassembly : s.port.assembly = none) : s.PortSound := by
  simp [State.PortSound, hlatch, hassembly]

theorem settingSize_pos (f : SettingField) : 0 < settingSize f := by
  cases f <;> decide

theorem Field.size_pos (f : Field) : 0 < f.size := by
  cases f
  case staged c f => exact settingSize_pos f
  all_goals exact Nat.succ_pos _

theorem length_slotRecordBytes (r : SlotRecord) : (slotRecordBytes r).length = 21 := by
  simp [slotRecordBytes, leBytes_length]

theorem length_slotViewBytes (k : Slot) : (slotViewBytes k).length = 29 := by
  unfold slotViewBytes
  cases k.state <;> simp [leBytes_length, length_slotRecordBytes]

theorem length_incidentBytes (i : Option Incident) : (incidentBytes i).length = 23 := by
  cases i <;> simp [incidentBytes, leBytes_length]

/-- Every field reads as many bytes as it has (R181, R191). -/
theorem State.length_fieldBytes (s : State) (f : Field) : (s.fieldBytes f).length = f.size := by
  cases f
  case incidentHead => exact length_incidentBytes _
  case slotView k => exact length_slotViewBytes _
  case boundaries => simp [State.fieldBytes, Field.size, leBytes_length, List.length_flatMap]
  case staged c f => exact leBytes_length _ _
  case globalStatus => simp [State.fieldBytes, Field.size, globalStatusBytes, leBytes_length]
  case classStatus c => simp [State.fieldBytes, Field.size, classStatusBytes, signedBytes, leBytes_length]
  case commandStatus => simp [State.fieldBytes, Field.size, commandStatusBytes, leBytes_length]
  case activeSettings c => simp [State.fieldBytes, Field.size, settingsBytes, leBytes_length]
  case shadowEntry e | activeEntry e => simp [State.fieldBytes, Field.size, matchEntryBytes, leBytes_length]
  all_goals simp [State.fieldBytes, Field.size, leBytes_length]

end Sys2Proof.Machine


namespace Sys2Proof.Machine

set_option Elab.async false

/-! ## What an event may make of the observers -/

/-- From `s` to `t` no live counter, bin or maximum decreased (R161). -/
structure State.CountsGrown (s t : State) : Prop where
  live : ∀ (i : ClassId) (k : ClassCounter), (s.stats.live[i].get k).toNat ≤ (t.stats.live[i].get k).toNat
  maxima : ∀ i : ClassId, s.stats.live[i].maxHold.toNat ≤ t.stats.live[i].maxHold.toNat
    ∧ s.stats.live[i].maxMemory.toNat ≤ t.stats.live[i].maxMemory.toNat
  globals : ∀ k : GlobalCounter, (s.stats.globals.get k).toNat ≤ (t.stats.globals.get k).toNat

theorem State.CountsGrown.of_eq {s t : State} (hlive : t.stats.live = s.stats.live)
    (hglobals : t.stats.globals = s.stats.globals) : s.CountsGrown t := by
  constructor <;> simp only [hlive, hglobals, le_refl, and_self, implies_true]

theorem State.CountsGrown.trans {s t u : State} (h : s.CountsGrown t) (h' : t.CountsGrown u) :
    s.CountsGrown u where
  live i k := (h.live i k).trans (h'.live i k)
  maxima i := ⟨(h.maxima i).1.trans (h'.maxima i).1, (h.maxima i).2.trans (h'.maxima i).2⟩
  globals k := (h.globals k).trans (h'.globals k)

/-- Class counters that grew while maxima and global counters stood. -/
theorem State.CountsGrown.of_countsKept {s t : State} {p : ClassId → ClassCounter → Prop}
    (h : s.CountsKept t p) (hmax : s.MaximaKept t) (hglobals : t.stats.globals = s.stats.globals) :
    s.CountsGrown t where
  live := h.grows
  maxima i := ⟨Nat.le_of_eq (congrArg BitVec.toNat (hmax i).1.symm),
    Nat.le_of_eq (congrArg BitVec.toNat (hmax i).2.symm)⟩
  globals k := by rw [hglobals]

theorem State.CountsGrown.countClass (s : State) (c : ClassId) (k : ClassCounter) (n : Nat) :
    s.CountsGrown (s.countClass c k n) :=
  .of_countsKept (.countClass s c k n) (.countClass s c k n) rfl

theorem GlobalStats.get_bump_same (r : GlobalStats) (k : GlobalCounter) (n : Nat) :
    (r.bump k n).get k = satAdd (r.get k) n := by
  cases k <;> rfl

theorem GlobalStats.get_bump_other (r : GlobalStats) {k k' : GlobalCounter} (n : Nat) (h : k' ≠ k) :
    (r.bump k n).get k' = r.get k' := by
  cases k <;> cases k' <;> simp [GlobalStats.bump, GlobalStats.put, GlobalStats.get] at h ⊢

theorem State.CountsGrown.countGlobal (s : State) (k : GlobalCounter) (n : Nat) :
    s.CountsGrown (s.countGlobal k n) where
  live _ _ := le_refl _
  maxima _ := ⟨le_refl _, le_refl _⟩
  globals k' := by
    rw [State.countGlobal_stats_globals]
    by_cases h : k' = k
    · rw [h, GlobalStats.get_bump_same]
      exact le_satAdd _ n
    · rw [GlobalStats.get_bump_other _ n h]

/-- A record in which only the maxima differ, and those by what they were offered (R158). -/
theorem State.CountsGrown.of_offer {s t : State} {c : ClassId} {r : ClassStats}
    (hlive : t.stats.live = s.stats.live.set c r) (hglobals : t.stats.globals = s.stats.globals)
    (hcounters : ∀ k : ClassCounter, r.get k = s.stats.live[c].get k)
    (hhold : s.stats.live[c].maxHold.toNat ≤ r.maxHold.toNat)
    (hmemory : s.stats.live[c].maxMemory.toNat ≤ r.maxMemory.toNat) : s.CountsGrown t := by
  refine ⟨fun i k => ?_, fun i => ?_, fun k => by rw [hglobals]⟩ <;> rw [hlive, live_set] <;> split
  · rename_i h
    rw [h, hcounters]
  · exact le_refl _
  · rename_i h
    exact h ▸ ⟨hhold, hmemory⟩
  · exact ⟨le_refl _, le_refl _⟩

theorem le_maxTime (a b : Time) : a.toNat ≤ (maxTime a b).toNat := by
  rw [maxTime_toNat]
  exact Nat.le_max_left _ _

theorem State.CountsGrown.offerHold (s : State) (c : ClassId) (t : Time) : s.CountsGrown (s.offerHold c t) :=
  .of_offer (s.offerHold_stats_live c t) rfl (fun k => by cases k <;> rfl) (le_maxTime _ t) (le_refl _)

theorem State.CountsGrown.offerMemory (s : State) (c : ClassId) (t : Time) :
    s.CountsGrown (s.offerMemory c t) :=
  .of_offer (s.offerMemory_stats_live c t) rfl (fun k => by cases k <;> rfl) (le_refl _) (le_maxTime _ t)

/-- From `s` to `t` the part went on counting and recording: no count fell, the snapshot bank stands, and what
was well formed is. -/
structure State.Recorded (s t : State) : Prop where
  time : t.time = s.time
  grown : s.CountsGrown t
  bank : t.stats.bank = s.stats.bank
  incidents : s.IncidentsSound → t.IncidentsSound
  boundaries : s.BoundariesSound → t.BoundariesSound
  port : s.PortSound → t.PortSound

theorem State.Recorded.trans {s t u : State} (h : s.Recorded t) (h' : t.Recorded u) : s.Recorded u where
  time := h'.time.trans h.time
  grown := h.grown.trans h'.grown
  bank := h'.bank.trans h.bank
  incidents hs := h'.incidents (h.incidents hs)
  boundaries hs := h'.boundaries (h.boundaries hs)
  port hs := h'.port (h.port hs)

/-- An event that counts and does nothing else the observers see. -/
theorem State.Recorded.of_grown {s t : State} (hgrown : s.CountsGrown t)
    (h : t.observers = { s.observers with stats.live := t.stats.live, stats.globals := t.stats.globals }) :
    s.Recorded t where
  time := congrArg Observers.time h
  grown := hgrown
  bank := congrArg (fun o => o.stats.bank) h
  incidents := .of_eq (congrArg Observers.incidents h)
  boundaries := .of_eq (congrArg (fun o => o.stats.boundaries) h)
  port := .of_eq (congrArg Observers.latch h) (congrArg Observers.assembly h) (congrArg Observers.bus h)

theorem State.Recorded.of_quiet {s t : State} (h : t.observers = s.observers) : s.Recorded t := by
  have hstats : t.stats = s.stats := congrArg Observers.stats h
  refine .of_grown (.of_eq (by rw [hstats]) (by rw [hstats])) ?_
  rw [hstats]
  exact h

theorem State.Recorded.refl (s : State) : s.Recorded s := .of_quiet rfl

/-- An update that the observers do not see, after an event. -/
theorem State.Recorded.quiet {s t u : State} (h : s.Recorded t) (hu : u.observers = t.observers) :
    s.Recorded u :=
  h.trans (.of_quiet hu)

/-- An update that the observers do not see, before an event. -/
theorem State.Recorded.after {s t u : State} (h : t.Recorded u) (ht : t.observers = s.observers) :
    s.Recorded u :=
  (State.Recorded.of_quiet ht).trans h

/-- Deriving head conditions anew counts, and nothing else that the observers see (R97). -/
theorem State.OnlyFlags.recorded {s t : State} (h : s.OnlyFlags t) : s.Recorded t := by
  have hframe := h.frame
  refine .of_grown (.of_countsKept h.counts h.maxima ?_) ?_
  · rw [hframe]
  · rw [hframe]
    rfl

section
variable {s t : State} (h : s.Recorded t)
include h

theorem State.Recorded.countClass {c : ClassId} {k : ClassCounter} {n : Nat} :
    s.Recorded (t.countClass c k n) :=
  h.trans (.of_grown (.countClass t c k n) rfl)

theorem State.Recorded.countGlobal {k : GlobalCounter} {n : Nat} : s.Recorded (t.countGlobal k n) :=
  h.trans (.of_grown (.countGlobal t k n) rfl)

theorem State.Recorded.offerHold {c : ClassId} {x : Time} : s.Recorded (t.offerHold c x) :=
  h.trans (.of_grown (.offerHold t c x) rfl)

theorem State.Recorded.offerMemory {c : ClassId} {x : Time} : s.Recorded (t.offerMemory c x) :=
  h.trans (.of_grown (.offerMemory t c x) rfl)

theorem State.Recorded.raise {body : IncidentBody} : s.Recorded (t.raise body) where
  time := (t.raise_time body).trans h.time
  grown := h.grown.trans (.of_eq (by rw [State.raise_stats]) (by rw [State.raise_stats]))
  bank := by rw [State.raise_stats, h.bank]
  incidents hs := (h.incidents hs).raise body
  boundaries hs := (h.boundaries hs).of_eq (by rw [State.raise_stats])
  port hs := (h.port hs).of_eq (by rw [State.raise_port]) (by rw [State.raise_port])
    (by rw [State.raise_port])

theorem State.Recorded.chooseOffer : s.Recorded t.chooseOffer := h.quiet t.observers_chooseOffer

theorem State.Recorded.completeQuiesce : s.Recorded t.completeQuiesce := h.quiet t.observers_completeQuiesce

theorem State.Recorded.noteBudgetWaits : s.Recorded t.noteBudgetWaits :=
  h.trans t.noteBudgetWaits_onlyFlags.recorded

end

/-- A placement counts, and nothing else that the observers see (R20, R47). -/
theorem State.Placed.recorded {s t : State} {e : EntryId} {r : HoldRecord} (h : s.Placed e r t) :
    s.Recorded t := by
  have hframe := h.frame
  refine .of_grown (.of_countsKept h.counts h.maxima ?_) ?_
  · rw [hframe]
  · rw [hframe]
    rfl

/-! ### The intake -/

theorem State.recorded_of_tryPlace {s t : State} {r : HoldRecord} (h : s.tryPlace r = some t) :
    s.Recorded t := by
  obtain ⟨e, -, hplaced⟩ := State.placed_of_tryPlace h
  exact hplaced.recorded

theorem State.endStall_recorded (s : State) (q : StalledRequest) : s.Recorded (s.endStall q) :=
  .countClass (t := s.setIntake .empty) (.of_quiet (by rfl))

theorem State.retryPlacement_recorded (s : State) : s.Recorded s.retryPlacement := by
  unfold State.retryPlacement
  split
  · split
    · exact (State.recorded_of_tryPlace ‹_›).trans (State.endStall_recorded _ _)
    · exact .refl s
  all_goals exact .refl s

theorem State.reportStall_recorded (s : State) : s.Recorded s.reportStall := by
  unfold State.reportStall
  split
  · split
    · exact .raise (.of_quiet (by rfl))
    · exact .refl s
  all_goals exact .refl s

theorem State.refuseRequest_recorded (s : State) (req : FabricRequest) (owed : RefusalStatus)
    (count : GlobalCounter) (body : IncidentBody) : s.Recorded (s.refuseRequest req owed count body) :=
  .chooseOffer (.raise (.countGlobal (.of_quiet (by rfl))))

theorem State.arrive_recorded (s : State) (req : FabricRequest) : s.Recorded (s.arrive req) := by
  unfold State.arrive State.acceptRequest
  split
  · split
    · exact s.refuseRequest_recorded _ _ _ _
    · split
      · exact s.refuseRequest_recorded _ _ _ _
      · split
        · exact State.recorded_of_tryPlace ‹_›
        · exact .of_quiet rfl
  · exact .refl s

theorem State.dropIntake_recorded (s : State) : s.Recorded s.dropIntake := by
  unfold State.dropIntake
  split
  · exact s.endStall_recorded _
  all_goals exact .of_quiet rfl

/-! ### The links and the credits -/

theorem State.fabricLinkUp_recorded (s : State) : s.Recorded s.fabricLinkUp := by
  unfold State.fabricLinkUp
  split
  · exact .raise (.of_quiet (by rfl))
  · exact .refl s

theorem State.fabricLinkDown_recorded (s : State) : s.Recorded s.fabricLinkDown := by
  unfold State.fabricLinkDown
  split
  · exact .refl s
  · exact .completeQuiesce (.raise (.countGlobal (s.dropIntake_recorded.quiet (by rfl))))

theorem State.memoryLinkUp_recorded (s : State) : s.Recorded s.memoryLinkUp := by
  unfold State.memoryLinkUp
  split
  · exact .raise (.of_quiet (by rfl))
  all_goals exact .refl s

theorem State.memoryLinkDown_recorded (s : State) : s.Recorded s.memoryLinkDown := by
  unfold State.memoryLinkDown
  split
  · exact .refl s
  all_goals exact .chooseOffer (.completeQuiesce (.raise (.countGlobal (.of_quiet (by rfl)))))

theorem State.Recorded.creditExcess {s t : State} {case count : Nat} (h : s.Recorded t) :
    s.Recorded (t.creditExcess case count) :=
  .raise h.countGlobal

theorem State.creditGrant_recorded (s : State) (n : Nat) : s.Recorded (s.creditGrant n) := by
  unfold State.creditGrant
  split
  · exact .refl s
  · exact .of_quiet rfl
  · exact .creditExcess (.refl s)

theorem State.creditReturn_recorded (s : State) (k : Nat) : s.Recorded (s.creditReturn k) := by
  unfold State.creditReturn
  split
  · exact .refl s
  · exact .creditExcess (.refl s)
  · split
    · exact .of_quiet rfl
    · exact .creditExcess (.of_quiet (by rfl))

/-! ### Boundaries, forwarding and the transit table -/

theorem State.takeBoundary_recorded (s : State) (c : ClassId) (forced : Bool) :
    s.Recorded (s.takeBoundary c forced) :=
  .noteBudgetWaits (.of_quiet (by rfl))

@[simp] theorem State.observers_send (s : State) (k : SlotId) (epoch : BitVec 3) (r : HoldRecord) :
    (s.send k epoch r).observers = s.observers := rfl

@[simp] theorem State.observers_removeHead (s : State) (c : ClassId) (e : EntryId) :
    (s.removeHead c e).observers = s.observers := rfl

@[simp] theorem State.observers_charge (s : State) (c : ClassId) (n : Nat) :
    (s.charge c n).observers = s.observers := by
  unfold State.charge
  split <;> rfl

theorem State.forwardHead_recorded (s : State) (c : ClassId) (e : EntryId) (r : HoldRecord) (k : SlotId) :
    s.Recorded (s.forwardHead c e r k) :=
  .noteBudgetWaits (.offerHold (.countClass (.countClass (.of_quiet (by
    rw [State.observers_send, State.observers_removeHead, State.observers_charge]
    rfl)))))

theorem State.forwardChoice_recorded (s : State) : s.Recorded s.forwardChoice := by
  rcases s.forwardChoice_cases with h | ⟨c, e, r, k, -, -, -, h⟩ <;> rw [h]
  · exact .refl s
  · exact ((s.movePointer c).forwardHead_recorded c e r k).after rfl

theorem State.expire_recorded (s : State) (k : SlotId) (r : SlotRecord) (d : Time) :
    s.Recorded (s.expire k r d) := by
  have hcount : s.Recorded (s.countClass r.cls .timeouts 1) := .countClass (.refl s)
  unfold State.expire
  dsimp only
  split
  · exact .chooseOffer (.completeQuiesce (.raise (hcount.quiet (by rfl))))
  · exact .raise (hcount.quiet (by rfl))

theorem State.expireSlot_recorded (s : State) (k : SlotId) : s.Recorded (s.expireSlot k) := by
  unfold State.expireSlot
  split
  · split
    · exact s.expire_recorded k _ _
    · exact .refl s
  all_goals exact .refl s

theorem State.takeResponse_recorded (s : State) (resp : MemResponse) : s.Recorded (s.takeResponse resp) := by
  unfold State.takeResponse
  split
  · exact .of_quiet rfl
  · exact .refl s

theorem State.supersede_recorded (s : State) (k : SlotId) (r : SlotRecord) (resp : MemResponse) :
    s.Recorded (s.supersede k r resp) :=
  .chooseOffer (.raise (.countClass (.of_quiet (by rfl))))

theorem State.matchWith_recorded (s : State) (resp : MemResponse) : s.Recorded (s.matchWith resp) := by
  have hstray : s.Recorded (s.stray (tagSlot resp.tag) resp) := .raise (.countGlobal (.of_quiet (by rfl)))
  unfold State.matchWith
  dsimp only
  split
  · split
    · exact .chooseOffer (.completeQuiesce (.countClass (.offerMemory (.of_quiet (by rfl)))))
    · exact s.supersede_recorded _ _ _
    · exact s.supersede_recorded _ _ _
    · exact .raise (.countClass (.of_quiet (by rfl)))
    · exact hstray
  · exact hstray

/-! ### What leaves -/

theorem State.realLeaves_recorded (s : State) : s.Recorded s.realLeaves := by
  unfold State.realLeaves State.enterTotal
  split
  · refine .chooseOffer ?_
    split
    · exact .countClass (.of_quiet (by rfl))
    · exact .of_quiet rfl
  · exact .refl s

theorem State.observers_ownerAnswered (s : State) (o : Owner) :
    (s.ownerAnswered o).observers = s.observers := by
  unfold State.ownerAnswered
  split <;> split <;> rfl

theorem State.answerLeaves_recorded (s : State) : s.Recorded s.answerLeaves := by
  unfold State.answerLeaves
  split
  · exact .chooseOffer (.of_quiet (by rw [State.observers_ownerAnswered]; rfl))
  · exact .refl s

end Sys2Proof.Machine


namespace Sys2Proof.Machine

set_option Elab.async false

/-! ## Events that may zero the live records (R163, R165) -/

/-- From `s` to `t` the live records were zeroed together and the interval started anew (R163, R165). -/
structure State.LiveZeroed (s t : State) : Prop where
  live : ∀ i : ClassId, t.stats.live[i] = ClassStats.zero
  globals : t.stats.globals = GlobalStats.zero
  start : t.stats.intervalStart = s.time

/-- From `s` to `t` the part went on recording, or zeroed the live records where it `zeroes`; a LOCKED bank lost
its lock at most (R161, R164). -/
structure State.RecordedOrZeroed (zeroes : Bool) (s t : State) : Prop where
  counts : s.CountsGrown t ∨ zeroes = true ∧ s.LiveZeroed t
  bank : s.stats.bank.state = .locked →
    t.stats.bank = s.stats.bank ∨ t.stats.bank = { s.stats.bank with state := .empty }
  incidents : s.IncidentsSound → t.IncidentsSound
  boundaries : s.BoundariesSound → t.BoundariesSound
  port : s.PortSound → t.PortSound

theorem State.Recorded.orZeroed {s t : State} {zeroes : Bool} (h : s.Recorded t) :
    s.RecordedOrZeroed zeroes t :=
  ⟨.inl h.grown, fun _ => .inl h.bank, h.incidents, h.boundaries, h.port⟩

/-- What went on recording before an event. -/
theorem State.RecordedOrZeroed.after {s t u : State} {zeroes : Bool} (h : t.RecordedOrZeroed zeroes u)
    (ht : s.Recorded t) : s.RecordedOrZeroed zeroes u where
  counts := h.counts.imp ht.grown.trans
    (And.imp_right fun hz => ⟨hz.live, hz.globals, hz.start.trans ht.time⟩)
  bank hlocked := by
    have hbank := h.bank (by rw [ht.bank]; exact hlocked)
    rw [ht.bank] at hbank
    exact hbank
  incidents hs := h.incidents (ht.incidents hs)
  boundaries hs := h.boundaries (ht.boundaries hs)
  port hs := h.port (ht.port hs)

/-- An update that the observers do not see, after an event. -/
theorem State.RecordedOrZeroed.quiet {s t u : State} {zeroes : Bool} (h : s.RecordedOrZeroed zeroes t)
    (hu : u.observers = t.observers) : s.RecordedOrZeroed zeroes u := by
  have hstats : u.stats = t.stats := congrArg Observers.stats hu
  obtain ⟨-, hgrown, -, hincidents, hboundaries, hport⟩ := State.Recorded.of_quiet hu
  refine ⟨h.counts.imp (·.trans hgrown) (And.imp_right fun hz => ⟨?_, ?_, ?_⟩), ?_,
    hincidents ∘ h.incidents, hboundaries ∘ h.boundaries, hport ∘ h.port⟩ <;> rw [hstats]
  · exact hz.live
  · exact hz.globals
  · exact hz.start
  · exact h.bank

/-- An event may zero the live records where one that zeroes nothing may happen. -/
theorem State.RecordedOrZeroed.weaken {s t : State} {zeroes : Bool} (h : s.RecordedOrZeroed zeroes t) :
    s.RecordedOrZeroed true t :=
  ⟨h.counts.imp_right fun hz => ⟨rfl, hz.2⟩, h.bank, h.incidents, h.boundaries, h.port⟩

theorem State.zeroLive_liveZeroed (s : State) : s.LiveZeroed s.zeroLive :=
  ⟨fun i => Vector.getElem_replicate i.isLt, rfl, rfl⟩

theorem State.zeroLive_recordedOrZeroed (s : State) : s.RecordedOrZeroed true s.zeroLive :=
  ⟨.inr ⟨rfl, s.zeroLive_liveZeroed⟩, fun _ => .inl rfl, .of_eq rfl, .of_eq rfl, .of_eq rfl rfl rfl⟩

/-- A snapshot is taken only while the bank is EMPTY (R163, R166). -/
theorem State.takeSnapshot_recordedOrZeroed {s : State} (h : s.stats.bank.state = .empty) :
    s.RecordedOrZeroed true s.takeSnapshot := by
  refine ⟨.inr ⟨rfl, s.zeroLive_liveZeroed.live, rfl, rfl⟩, fun hlocked => ?_, .of_eq rfl, .of_eq rfl,
    .of_eq rfl rfl rfl⟩
  rw [h] at hlocked
  cases hlocked

/-- The timer's start is nothing that is counted or recorded (R166). -/
theorem State.RecordedOrZeroed.restartTimer {s t : State} {zeroes : Bool} (h : s.RecordedOrZeroed zeroes t)
    (start : Time) : s.RecordedOrZeroed zeroes { t with stats.timerStart := start } where
  counts := h.counts.imp (fun hg => ⟨hg.live, hg.maxima, hg.globals⟩)
    (And.imp_right fun hz => ⟨hz.live, hz.globals, hz.start⟩)
  bank := h.bank
  incidents := h.incidents
  boundaries := h.boundaries
  port := h.port

/-- An expiry takes a snapshot, or counts and reports the skip (R166). -/
theorem State.autoExpiry_recordedOrZeroed (s : State) : s.RecordedOrZeroed true s.autoExpiry := by
  unfold State.autoExpiry
  refine .restartTimer ?_ s.time
  split
  · exact State.takeSnapshot_recordedOrZeroed ‹_›
  · exact State.Recorded.orZeroed (.raise (.countGlobal (.refl s)))

/-! ### The commands of the command register (R184) -/

/-- The command status is none of the observers. -/
theorem State.Recorded.done {s t : State} {code argument : Byte} {d : Nat} (h : s.Recorded t) :
    s.Recorded (t.done code argument d) :=
  h.quiet rfl

theorem State.command_recordedOrZeroed (s : State) (code argument : Byte) {owner : State → State}
    {zeroes : Bool} (h : ∀ t : State, t.RecordedOrZeroed zeroes (owner t)) :
    s.RecordedOrZeroed zeroes (s.command code argument owner) := by
  unfold State.command
  split
  · exact State.Recorded.orZeroed (.of_quiet rfl)
  · exact (h _).after (.of_quiet rfl)

theorem State.command_recorded (s : State) (code argument : Byte) {owner : State → State} {zeroes : Bool}
    (h : ∀ t : State, t.Recorded (owner t)) : s.RecordedOrZeroed zeroes (s.command code argument owner) :=
  s.command_recordedOrZeroed code argument fun t => (h t).orZeroed

theorem State.classCommand_recorded (s : State) (code argument : Byte) {owner : ClassId → State → State}
    {zeroes : Bool} (h : ∀ (n : ClassId) (t : State), t.Recorded (owner n t)) :
    s.RecordedOrZeroed zeroes (s.classCommand code argument owner) := by
  refine s.command_recorded code argument fun t => ?_
  split
  · exact h _ t
  · exact .of_quiet rfl

theorem State.takeQuiesce_recorded (s : State) (argument : Byte) : s.Recorded (s.takeQuiesce argument) := by
  unfold State.takeQuiesce
  split
  · exact .completeQuiesce (.of_quiet (by rfl))
  all_goals exact .of_quiet rfl

theorem State.takeResume_recorded (s : State) (argument : Byte) : s.Recorded (s.takeResume argument) := by
  unfold State.takeResume
  split <;> exact .of_quiet rfl

theorem State.takeCommit_recorded (argument : Byte) (n : ClassId) (s : State) :
    s.Recorded (s.takeCommit argument n) := by
  unfold State.takeCommit
  split <;> exact .of_quiet rfl

theorem State.takeApply_recorded (argument : Byte) (n : ClassId) (s : State) :
    s.Recorded (s.takeApply argument n) := by
  unfold State.takeApply
  split
  · exact (s.takeBoundary_recorded n true).done
  · exact .of_quiet rfl

/-- A discard counts the entries that it cancels (R34). -/
theorem State.takeDiscard_recorded (argument : Byte) (n : ClassId) (s : State) :
    s.Recorded (s.takeDiscard argument n) := by
  have hframe := State.foldl_cancelEntry_frame s.pool.queues[n] s
  have hcancelled : s.Recorded (((s.pool.queues[n].foldl State.cancelEntry s).setQueue n []).joinAnswers
      (s.pool.queues[n].map Owner.entry)) := by
    rw [hframe]
    exact .of_quiet rfl
  unfold State.takeDiscard
  exact .chooseOffer (.done (.noteBudgetWaits hcancelled.countClass))

/-- SNAPSHOT zeroes in EMPTY and counts a miss in LOCKED (R163). -/
theorem State.takeSnapshotCommand_recordedOrZeroed (s : State) (argument : Byte) :
    s.RecordedOrZeroed true (s.takeSnapshotCommand argument) := by
  unfold State.takeSnapshotCommand
  split
  · exact (State.takeSnapshot_recordedOrZeroed ‹_›).quiet rfl
  · exact State.Recorded.orZeroed (.quiet (.countGlobal (.refl s)) (by rfl))

/-- A release takes the lock off and leaves the rest of the bank (R164). -/
theorem State.takeRelease_recordedOrZeroed (s : State) (argument : Byte) {zeroes : Bool} :
    s.RecordedOrZeroed zeroes (s.takeRelease argument) := by
  unfold State.takeRelease
  split
  · exact State.Recorded.orZeroed (.of_quiet rfl)
  · exact ⟨.inl (.of_eq rfl rfl), fun _ => .inr rfl, .of_eq rfl, .of_eq rfl, .of_eq rfl rfl rfl⟩

theorem State.takeIncidentsClear_recorded (s : State) (argument : Byte) :
    s.Recorded (s.takeIncidentsClear argument) :=
  ⟨rfl, .of_eq rfl rfl, rfl, fun _ => .of_empty rfl rfl, .of_eq rfl, .of_eq rfl rfl rfl⟩

theorem State.restoreDefaults_recorded (s : State) : s.Recorded s.restoreDefaults :=
  ⟨rfl, .of_eq rfl rfl, rfl, .of_eq rfl, fun _ => .of_reset rfl, .of_eq rfl rfl rfl⟩

theorem State.takeDefaults_recorded (s : State) (argument : Byte) : s.Recorded (s.takeDefaults argument) := by
  unfold State.takeDefaults
  split
  · exact .of_quiet rfl
  · split
    · exact .of_quiet rfl
    · split
      · exact .of_quiet rfl
      · exact s.restoreDefaults_recorded.done.trans (State.retryPlacement_recorded _)

/-- The command code is SNAPSHOT's or STATS_CLEAR's (R163, R165). -/
def zeroesCode (code : Byte) : Bool := decide (code = 8 ∨ code = 10)

/-- Of the commands of the command register only SNAPSHOT and STATS_CLEAR zero the live records. -/
theorem State.writeCommand_recordedOrZeroed (s : State) (code b : Byte) :
    s.RecordedOrZeroed (zeroesCode code) (s.writeCommand code b) := by
  unfold State.writeCommand
  split
  · exact s.command_recorded 1 b fun t => t.takeQuiesce_recorded b
  · exact s.command_recorded 2 b fun t => t.takeResume_recorded b
  · exact s.command_recorded 3 b fun _ => .of_quiet rfl
  · exact s.classCommand_recorded 4 b (State.takeCommit_recorded b)
  · exact s.classCommand_recorded 5 b (State.takeApply_recorded b)
  · exact s.classCommand_recorded 6 b (State.takeDiscard_recorded b)
  · exact s.command_recorded 7 b fun _ => .of_quiet rfl
  · rename_i hcode
    obtain rfl := code_eq_of_toNat hcode
    exact s.command_recordedOrZeroed 8 b fun t => t.takeSnapshotCommand_recordedOrZeroed b
  · exact s.command_recordedOrZeroed 9 b fun t => t.takeRelease_recordedOrZeroed b
  · rename_i hcode
    obtain rfl := code_eq_of_toNat hcode
    exact s.command_recordedOrZeroed 10 b fun t => t.zeroLive_recordedOrZeroed.quiet rfl
  · exact s.command_recorded 11 b fun t => t.takeIncidentsClear_recorded b
  · exact s.command_recorded 12 b fun t => t.takeDefaults_recorded b
  · exact s.command_recorded code b fun _ => .of_quiet rfl

/-! ### Field writes (R182, R183) -/

/-- Boundaries come into force only where none of them fails (R160). -/
theorem State.writeBoundaries_recorded (s : State) (b : Vector (BitVec 16) 7) :
    s.Recorded (s.writeBoundaries b) := by
  unfold State.writeBoundaries
  split
  · rename_i hnone
    exact ⟨rfl, .of_eq rfl rfl, rfl, .of_eq rfl,
      fun _ => .of_not_fails (not_fails_of_firstFailingBoundary hnone), .of_eq rfl rfl rfl⟩
  · exact .raise (.refl s)

theorem State.writeShadow_recorded (s : State) (e : MapIndex) (m : MatchEntry) :
    s.Recorded (s.writeShadow e m) := by
  unfold State.writeShadow
  split <;> exact .of_quiet rfl

theorem State.writeStallLimit_recorded (s : State) (v : BitVec 16) : s.Recorded (s.writeStallLimit v) :=
  (State.reportStall_recorded _).after rfl

theorem State.writeAutoInterval_recorded (s : State) (v : BitVec 16) : s.Recorded (s.writeAutoInterval v) :=
  ⟨rfl, .of_eq rfl rfl, rfl, .of_eq rfl, .of_eq rfl, .of_eq rfl rfl rfl⟩

/-- A field that takes effect; the command register's may be a SNAPSHOT or a STATS_CLEAR. -/
theorem State.takeField_recordedOrZeroed (s : State) (f : Field) (bytes : List Byte) :
    s.RecordedOrZeroed true (s.takeField f bytes) := by
  cases f
  case command => exact (s.writeCommand_recordedOrZeroed _ _).weaken
  case stallLimit => exact (s.writeStallLimit_recorded _).orZeroed
  case autoInterval => exact (s.writeAutoInterval_recorded _).orZeroed
  case boundaries => exact (s.writeBoundaries_recorded _).orZeroed
  case shadowEntry e => exact (s.writeShadow_recorded e _).orZeroed
  all_goals exact State.Recorded.orZeroed (.of_quiet rfl)

/-- An update of the port that keeps its latch and assembly sound. -/
theorem State.Recorded.of_port {s t : State} (h : t = { s with port := t.port })
    (hport : s.PortSound → t.PortSound) : s.Recorded t := by
  rw [h] at hport ⊢
  exact ⟨rfl, .of_eq rfl rfl, rfl, .of_eq rfl, .of_eq rfl, hport⟩

theorem State.discardAssembly_recorded (s : State) : s.Recorded (s.setAssembly none) :=
  .of_port rfl (.of_no_assembly rfl rfl)

/-- What is assembled has a byte for every place up to the new one's (R182). -/
theorem State.length_assembled {s : State} {f : Field} {i : Nat} {b : Byte} {bytes : List Byte}
    (h : s.assembled f i b = some bytes) : bytes.length = i + 1 := by
  unfold State.assembled at h
  split at h
  · rename_i hi
    obtain rfl := Option.some.inj h
    simp [hi]
  · split at h
    · split at h
      · rename_i hbytes
        obtain rfl := Option.some.inj h
        simp [hbytes.2]
      · cases h
    · cases h

/-- A byte written inside a field in a write transfer: what is assembled stays a proper first part of a writable
field (R182). -/
theorem State.writeByte_recordedOrZeroed {s : State} (hbus : s.port.bus = .writing) {f : Field} {i : Nat}
    (hi : i < f.size) (b : Byte) : s.RecordedOrZeroed true (s.writeByte f i b) := by
  unfold State.writeByte
  split
  · rename_i hwritable
    split
    · rename_i bytes hbytes
      split
      · exact (State.takeField_recordedOrZeroed _ f bytes).after s.discardAssembly_recorded
      · rename_i hpart
        have hlength := State.length_assembled hbytes
        refine State.Recorded.orZeroed (.of_port rfl fun hs => ⟨hs.1, fun g part hg => ?_⟩)
        cases hg
        exact ⟨hwritable, by omega, by omega, hbus⟩
    · exact s.discardAssembly_recorded.orZeroed
  · exact s.discardAssembly_recorded.orZeroed

/-- The place that an offset names lies within its field (R191). -/
theorem lt_size_of_fieldAt {offset : BitVec 16} {f : Field} {i : Nat} (h : fieldAt offset = some (f, i)) :
    i < f.size := by
  unfold fieldAt at h
  dsimp only at h
  split at h
  · rename_i hwithin
    cases h
    omega
  · cases h

theorem State.windowWrite_recordedOrZeroed (s : State) (b : Byte) :
    s.RecordedOrZeroed true (s.windowWrite b) := by
  unfold State.windowWrite
  split
  · rename_i hbus
    have hack : s.Recorded { s with port.ack := true } := .of_quiet rfl
    cases hf : fieldAt s.port.offset with
    | none => exact s.discardAssembly_recorded.orZeroed.quiet rfl
    | some p =>
      have hbyte := State.writeByte_recordedOrZeroed (s := { s with port.ack := true }) hbus
        (lt_size_of_fieldAt hf) b
      exact (hbyte.after hack).quiet rfl
  all_goals exact (State.Recorded.refl s).orZeroed

/-! ### The bus and the reads (R172, R178 to R181) -/

theorem State.i2cAddress_recorded (s : State) (address : BitVec 7) (direction : I2cDirection) :
    s.Recorded (s.i2cAddress address direction) := by
  unfold State.i2cAddress
  split <;> exact .of_port rfl (.of_no_assembly rfl rfl)

/-- Offset bytes are taken before any byte is assembled (R179). -/
theorem State.offsetWrite_recorded (s : State) (high low : Byte) : s.Recorded (s.offsetWrite high low) := by
  unfold State.offsetWrite
  split
  · rename_i hbus
    refine .of_port rfl fun hs => .of_no_assembly (s := s) rfl ?_ hs
    refine Option.eq_none_iff_forall_ne_some.mpr fun ⟨f, bytes⟩ hassembly => ?_
    obtain ⟨-, -, -, hwriting⟩ := hs.2 f bytes hassembly
    rw [hbus] at hwriting
    cases hwriting
  all_goals exact .refl s

theorem State.transferEnd_recorded (s : State) : s.Recorded s.transferEnd :=
  .of_port rfl (.of_no_assembly rfl rfl)

/-- A latched field is whole, and a head mark is set only on a record (R172, R181). -/
theorem State.latchField_recorded (s : State) (f : Field) : s.Recorded (s.latchField f) := by
  unfold State.latchField
  split
  · exact .refl s
  · rename_i hsize
    refine ⟨rfl, .of_eq rfl rfl, rfl,
      fun ⟨hlength, hmark, hgaps, hlast⟩ => ⟨hlength, fun h => ?_, hgaps, hlast⟩, .of_eq rfl,
      fun hs => ⟨fun g bytes hg => ?_, hs.2⟩⟩
    · rcases Bool.or_eq_true_iff.mp h with hbefore | hnew
      · exact hmark hbefore
      · have hflag : s.incidentFlag = true := (Bool.and_eq_true_iff.mp hnew).2
        simpa [State.incidentFlag] using hflag
    · cases hg
      have := f.size_pos
      exact ⟨by omega, s.length_fieldBytes f⟩

theorem State.removeHeadRecord_recorded (s : State) : s.Recorded s.removeHeadRecord := by
  have hframe : s.removeHeadRecord = { s with incidents := s.removeHeadRecord.incidents } := by
    unfold State.removeHeadRecord
    split <;> rfl
  have hsound (hs : s.IncidentsSound) := hs.removeHeadRecord
  generalize s.removeHeadRecord = t at hframe hsound
  rw [hframe] at hsound ⊢
  exact ⟨rfl, .of_eq rfl rfl, rfl, hsound, .of_eq rfl, .of_eq rfl rfl rfl⟩

theorem State.readEffect_recorded (s : State) (offset : BitVec 16) : s.Recorded (s.readEffect offset) := by
  unfold State.readEffect
  split
  · exact .refl s
  · split
    · exact s.latchField_recorded _
    · split
      · exact s.removeHeadRecord_recorded
      · exact .refl s

theorem State.sendAt_recorded (s : State) (offset : BitVec 16) : s.Recorded (s.sendAt offset) :=
  (s.readEffect_recorded offset).quiet rfl

end Sys2Proof.Machine


namespace Sys2Proof.Machine

set_option Elab.async false

/-! ## The observers over all commands -/

/-- The commands that may zero the live records: SNAPSHOT, STATS_CLEAR, the expiry, and what may carry the first
two (R161, R163, R165, R166). -/
def zeroes : Instr → Bool
  | .snapshot _ | .statsClear _ | .windowWrite _ | .autoSnapshotExpiry | .unknownCommandCode _ _ => true
  | _ => false

theorem cases_of_zeroes {c : Instr} (h : zeroes c = true) :
    (∃ b : Byte, c = .snapshot b ∨ c = .statsClear b ∨ c = .windowWrite b)
      ∨ c = .autoSnapshotExpiry ∨ ∃ code b : Byte, c = .unknownCommandCode code b := by
  unfold zeroes at h
  split at h
  · exact .inl ⟨_, .inl rfl⟩
  · exact .inl ⟨_, .inr (.inl rfl)⟩
  · exact .inl ⟨_, .inr (.inr rfl)⟩
  · exact .inr (.inl rfl)
  · exact .inr (.inr ⟨_, _, rfl⟩)
  · cases h

theorem recordedOrZeroed_of_whenRunning {s t : State} {f : State → State} {zeroes : Bool}
    (h : (.next (s.whenRunning f) : Host.Outcome State Fault Refusal) = .next t)
    (hf : s.RecordedOrZeroed zeroes (f s)) : s.RecordedOrZeroed zeroes t :=
  of_whenRunning (s.RecordedOrZeroed zeroes) h (State.Recorded.refl s).orZeroed hf

theorem recorded_of_whenRunning {s t : State} {f : State → State} {zeroes : Bool}
    (h : (.next (s.whenRunning f) : Host.Outcome State Fault Refusal) = .next t) (hf : s.Recorded (f s)) :
    s.RecordedOrZeroed zeroes t :=
  recordedOrZeroed_of_whenRunning h hf.orZeroed

theorem quietObservers_of_whenRunning {s t : State} {f : State → State} {zeroes : Bool}
    (h : (.next (s.whenRunning f) : Host.Outcome State Fault Refusal) = .next t)
    (hf : (f s).observers = s.observers) : s.RecordedOrZeroed zeroes t :=
  recorded_of_whenRunning h (.of_quiet hf)

/-- Of the commands but the resets only those named zero the live records, and none writes a LOCKED bank (R161,
R164). -/
theorem exec_recordedOrZeroed {c : Instr} {s t : State} (h : exec c s = .next t)
    (hreset : isReset c = false) : s.RecordedOrZeroed (zeroes c) t := by
  cases c
  case resetEnd straps =>
    cases h
    split
    · exact (State.Recorded.refl s).orZeroed
    all_goals exact State.Recorded.orZeroed (.of_quiet rfl)
  case fabricLinkUp => exact recorded_of_whenRunning h s.fabricLinkUp_recorded
  case fabricLinkDown => exact recorded_of_whenRunning h s.fabricLinkDown_recorded
  case memoryLinkUp => exact recorded_of_whenRunning h s.memoryLinkUp_recorded
  case memoryLinkDown => exact recorded_of_whenRunning h s.memoryLinkDown_recorded
  case creditGrant m => exact recorded_of_whenRunning h (s.creditGrant_recorded _)
  case creditReturn m => exact recorded_of_whenRunning h (s.creditReturn_recorded _)
  case fabricRequestArrival req => exact recorded_of_whenRunning h (s.arrive_recorded req)
  case placementRetry => exact recorded_of_whenRunning h s.retryPlacement_recorded
  case intakeStall => exact recorded_of_whenRunning h s.reportStall_recorded
  case periodBoundary cls =>
    refine recorded_of_whenRunning h ?_
    split
    · exact s.takeBoundary_recorded cls false
    · exact .refl s
  case forwarding => exact recorded_of_whenRunning h s.forwardChoice_recorded
  case deadlineExpiry slot => exact recorded_of_whenRunning h (s.expireSlot_recorded slot)
  case memoryResponseTaken resp => exact recorded_of_whenRunning h (s.takeResponse_recorded resp)
  case matchResponse =>
    refine recorded_of_whenRunning h ?_
    split
    · exact s.matchWith_recorded _
    all_goals exact .refl s
  case quiesceCompletion => exact quietObservers_of_whenRunning h s.observers_completeQuiesce
  case realResponseLeaves => exact recorded_of_whenRunning h s.realLeaves_recorded
  case answerLeaves => exact recorded_of_whenRunning h s.answerLeaves_recorded
  case autoSnapshotExpiry =>
    refine recordedOrZeroed_of_whenRunning h ?_
    split
    · exact s.autoExpiry_recordedOrZeroed
    · exact (State.Recorded.refl s).orZeroed
  case i2cAddress address direction => exact recorded_of_whenRunning h (s.i2cAddress_recorded address direction)
  case offsetWrite high low => exact recorded_of_whenRunning h (s.offsetWrite_recorded high low)
  case transferEnd => exact recorded_of_whenRunning h s.transferEnd_recorded
  case windowWrite byte => exact recordedOrZeroed_of_whenRunning h (s.windowWrite_recordedOrZeroed byte)
  case fieldLatch =>
    refine recorded_of_whenRunning h ?_
    split
    · exact s.sendAt_recorded _
    all_goals exact .refl s
  case incidentHeadLatch => exact recorded_of_whenRunning h (s.sendAt_recorded _)
  case incidentHeadRemove => exact recorded_of_whenRunning h (s.sendAt_recorded _)
  case shadowEntryWrite index value => exact recorded_of_whenRunning h (s.writeShadow_recorded index value)
  case stallLimitWrite value => exact recorded_of_whenRunning h (s.writeStallLimit_recorded value)
  case autoSnapshotIntervalWrite value => exact recorded_of_whenRunning h (s.writeAutoInterval_recorded value)
  case histogramBoundariesWrite values => exact recorded_of_whenRunning h (s.writeBoundaries_recorded values)
  case quiesce b => exact recordedOrZeroed_of_whenRunning h (s.writeCommand_recordedOrZeroed 1 b)
  case resume b => exact recordedOrZeroed_of_whenRunning h (s.writeCommand_recordedOrZeroed 2 b)
  case mapSwap b => exact recordedOrZeroed_of_whenRunning h (s.writeCommand_recordedOrZeroed 3 b)
  case classCommit b => exact recordedOrZeroed_of_whenRunning h (s.writeCommand_recordedOrZeroed 4 b)
  case classApply b => exact recordedOrZeroed_of_whenRunning h (s.writeCommand_recordedOrZeroed 5 b)
  case classDiscard b => exact recordedOrZeroed_of_whenRunning h (s.writeCommand_recordedOrZeroed 6 b)
  case purge b => exact recordedOrZeroed_of_whenRunning h (s.writeCommand_recordedOrZeroed 7 b)
  case snapshot b => exact recordedOrZeroed_of_whenRunning h (s.writeCommand_recordedOrZeroed 8 b)
  case snapshotRelease b => exact recordedOrZeroed_of_whenRunning h (s.writeCommand_recordedOrZeroed 9 b)
  case statsClear b => exact recordedOrZeroed_of_whenRunning h (s.writeCommand_recordedOrZeroed 10 b)
  case incidentsClear b => exact recordedOrZeroed_of_whenRunning h (s.writeCommand_recordedOrZeroed 11 b)
  case defaults b => exact recordedOrZeroed_of_whenRunning h (s.writeCommand_recordedOrZeroed 12 b)
  case unknownCommandCode code b =>
    exact recordedOrZeroed_of_whenRunning h (s.writeCommand_recordedOrZeroed code b).weaken
  case sendCompletion | stagedSettingWrite | defaultClassWrite | alertFlagsWrite | alertEnablesWrite =>
    exact quietObservers_of_whenRunning h rfl
  case timeCountAdvance =>
    exact recordedOrZeroed_of_whenRunning h
      ⟨.inl (.of_eq rfl rfl), fun _ => .inl rfl, .of_eq rfl, .of_eq rfl, .of_eq rfl rfl rfl⟩
  all_goals cases hreset

/-! ### Resets, and the statements -/

/-- A state whose observers are at their reset values is well formed (R160, R169, R181, R182). -/
theorem observersSound_of_reset {t : State} (h : t.observers = State.reset.observers) :
    t.IncidentsSound ∧ t.BoundariesSound ∧ t.PortSound := by
  refine ⟨.of_empty ?_ ?_, .of_reset ?_, .of_clear ?_ ?_⟩
  · exact congrArg (fun o => o.incidents.records) h
  · exact congrArg (fun o => o.incidents.headMark) h
  · exact congrArg (fun o => o.stats.boundaries) h
  · exact congrArg Observers.latch h
  · exact congrArg Observers.assembly h

/-- A reset puts every observer at its reset value, or is not taken (R189). -/
theorem exec_observers_of_reset {c : Instr} {s t : State} (h : exec c s = .next t) (hreset : isReset c = true) :
    t = s ∨ t.observers = State.reset.observers := by
  cases c
  case powerOnReset =>
    cases h
    exact .inr rfl
  case resetNAssertion lowNs =>
    simp only [exec, execResetNAssertion] at h
    split at h
    · cases h
      exact .inl rfl
    · exact of_whenRunning (fun u => u = s ∨ u.observers = State.reset.observers) h (.inl rfl) (.inr rfl)
  all_goals cases hreset

theorem exec_observersKept {c : Instr} {s t : State} (h : exec c s = .next t) :
    (s.IncidentsSound → t.IncidentsSound) ∧ (s.BoundariesSound → t.BoundariesSound)
      ∧ (s.PortSound → t.PortSound) := by
  cases hreset : isReset c with
  | false =>
    obtain ⟨-, -, hincidents, hboundaries, hport⟩ := exec_recordedOrZeroed h hreset
    exact ⟨hincidents, hboundaries, hport⟩
  | true =>
    rcases exec_observers_of_reset h hreset with rfl | ht
    · exact ⟨id, id, id⟩
    · obtain ⟨hincidents, hboundaries, hport⟩ := observersSound_of_reset ht
      exact ⟨fun _ => hincidents, fun _ => hboundaries, fun _ => hport⟩

/-- Settles O15: a reset empties the observers, and every other command keeps them well formed. -/
theorem observersKept : Obligations.ObserversKept := by
  intro s t h
  unfold step at h
  split at h
  · cases h
    exact ⟨id, id, id⟩
  · have hkept := exec_observersKept h
    exact hkept

/-- Settles O19: a snapshot is taken only while the bank is EMPTY. -/
theorem lockedBankKept : Obligations.LockedBankKept :=
  fun _ _ _ h hreset hlocked => (exec_recordedOrZeroed h hreset).bank hlocked

/-- Settles O20: counting never lowers a count, and the rest is the zeroing of a snapshot or a clear. -/
theorem countersNeverDecrease : Obligations.CountersNeverDecrease := by
  intro c s t h hreset
  refine (exec_recordedOrZeroed h hreset).counts.imp (fun hgrown => ?_) (fun ⟨hzeroes, hzeroed⟩ => ?_)
  · exact ⟨hgrown.live, hgrown.maxima, hgrown.globals⟩
  · exact ⟨hzeroed.live, hzeroed.globals, hzeroed.start, cases_of_zeroes hzeroes⟩

/-! ## SNAPSHOT, SNAPSHOT_RELEASE, STATS_CLEAR and the expiry (R163 to R166) -/

theorem State.takeSnapshotCommand_of_empty {s : State} (h : s.stats.bank.state = .empty) (argument : Byte) :
    s.takeSnapshotCommand argument = s.takeSnapshot.done 8 argument 0 := by
  rw [State.takeSnapshotCommand, h]

theorem State.takeSnapshotCommand_of_locked {s : State} (h : s.stats.bank.state = .locked) (argument : Byte) :
    s.takeSnapshotCommand argument
      = (s.countGlobal .snapshotsMissed 1).refuse 8 argument .bankLocked 0 := by
  rw [State.takeSnapshotCommand, h]

theorem State.takeRelease_of_empty {s : State} (h : s.stats.bank.state = .empty) (argument : Byte) :
    s.takeRelease argument = s.refuse 9 argument .bankEmpty 0 := by
  rw [State.takeRelease, h]

theorem State.takeRelease_of_locked {s : State} (h : s.stats.bank.state = .locked) (argument : Byte) :
    s.takeRelease argument
      = { s with stats.bank.state := .empty, alerts.snapshot := false }.done 9 argument 0 := by
  rw [State.takeRelease, h]

theorem State.autoExpiry_of_empty {s : State} (h : s.stats.bank.state = .empty) :
    s.autoExpiry = { s.takeSnapshot with stats.timerStart := s.time } := by
  rw [State.autoExpiry, h]

theorem State.autoExpiry_of_locked {s : State} (h : s.stats.bank.state = .locked) :
    s.autoExpiry = { (s.countGlobal .snapshotsMissed 1).raise
        (plainIncident .snapshotMissed s.stats.bank.time) with stats.timerStart := s.time } := by
  rw [State.autoExpiry, h]

/-- The timer runs and its interval has passed (R166). -/
theorem State.autoDue_iff (s : State) : s.autoDue = true ↔ s.stats.autoInterval ≠ 0
    ∧ s.stats.autoInterval.toNat * 1000 ≤ (s.time - s.stats.timerStart).toNat := by
  rw [State.autoDue, Bool.and_eq_true, decide_eq_true_iff]
  exact and_congr_right' decide_eq_true_iff

/-- An expiry that is due is taken (R166). -/
theorem exec_autoSnapshotExpiry_of_due {s : State} (hs : s.phase = .running) (hdue : s.autoDue = true) :
    exec .autoSnapshotExpiry s = .next s.autoExpiry :=
  next_whenRunning hs (if_pos hdue)

/-- Settles O45, command by command. -/
theorem snapshotsAndClears : Obligations.SnapshotsAndClears := by
  intro s b zeroed hs hzeroed
  subst hzeroed
  refine ⟨fun hidle => ⟨fun hempty => ⟨?_, ?_⟩, fun hlocked => ⟨?_, ?_⟩, ?_⟩,
    fun hdue => ⟨fun hempty => ?_, fun hlocked => ?_⟩, fun hnot => ?_⟩
  · refine next_whenRunning hs ((State.command_of_not_running hidle 8 b _).trans
      (State.takeSnapshotCommand_of_empty ?_ b))
    exact hempty
  · refine next_whenRunning hs ((State.command_of_not_running hidle 9 b _).trans
      (State.takeRelease_of_empty ?_ b))
    exact hempty
  · refine next_whenRunning hs ((State.command_of_not_running hidle 8 b _).trans
      (State.takeSnapshotCommand_of_locked ?_ b))
    exact hlocked
  · refine next_whenRunning hs ((State.command_of_not_running hidle 9 b _).trans
      (State.takeRelease_of_locked ?_ b))
    exact hlocked
  · exact next_whenRunning hs (State.command_of_not_running hidle 10 b _)
  · rw [exec_autoSnapshotExpiry_of_due hs (s.autoDue_iff.mpr hdue), State.autoExpiry_of_empty hempty]
    rfl
  · rw [exec_autoSnapshotExpiry_of_due hs (s.autoDue_iff.mpr hdue), State.autoExpiry_of_locked hlocked]
    rfl
  · refine next_whenRunning hs (if_neg fun hdue => ?_)
    obtain ⟨hruns, hpassed⟩ := s.autoDue_iff.mp hdue
    exact hnot.elim hruns (Nat.not_lt.mpr hpassed)

end Sys2Proof.Machine


namespace Sys2Proof.Machine

set_option Elab.async false

/-! ## The incident queue and the alert line (R171, R173, R175, R176) -/

theorem State.raise_of_room {s : State} (h : s.incidents.records.length < 32) (body : IncidentBody) :
    s.raise body = { s with
      incidents.records := s.incidents.records
        ++ [⟨s.incidents.sequence, s.time, body, s.incidents.dropCount⟩]
      incidents.dropCount := 0
      incidents.sequence := s.incidents.sequence + 1 } :=
  if_pos h

/-- A count of 16 bits that stays at its largest value is the increase, cut there (R171). -/
theorem saturating_succ_eq (n : BitVec 16) :
    (if n = 65535 then 65535 else n + 1) = BitVec.ofNat 16 (min 65535 (n.toNat + 1)) := by
  split
  · rename_i hfull
    rw [hfull]
    rfl
  · bv_omega

theorem State.raise_of_full {s : State} (h : 32 ≤ s.incidents.records.length) (body : IncidentBody) :
    s.raise body = { s with
      incidents.dropCount := BitVec.ofNat 16 (min 65535 (s.incidents.dropCount.toNat + 1))
      incidents.sequence := s.incidents.sequence + 1 } := by
  rw [← saturating_succ_eq]
  exact if_neg (Nat.not_lt.mpr h)

theorem State.incidentFlag_iff (s : State) : s.incidentFlag = true ↔ s.incidents.records ≠ [] := by
  simp [State.incidentFlag]

theorem State.alertLow_iff (s : State) : s.alertLow = true ↔
    (s.incidents.records ≠ [] ∧ s.alerts.enables.incident = true)
      ∨ (s.alerts.snapshot = true ∧ s.alerts.enables.snapshot = true)
      ∨ (s.alerts.quiesce = true ∧ s.alerts.enables.quiesce = true)
      ∨ (s.alerts.saturation = true ∧ s.alerts.enables.saturation = true) := by
  simp only [State.alertLow, Bool.or_eq_true, Bool.and_eq_true, s.incidentFlag_iff, or_assoc]

/-- Settles O46: a raise by the room left in the queue, the clear as its command, and the line flag by flag. -/
theorem incidentsRecordedOrDropped : Obligations.IncidentsRecordedOrDropped :=
  ⟨fun _ body => ⟨fun hroom => State.raise_of_room hroom body, fun hfull => State.raise_of_full hfull body⟩,
    fun _ b hs hidle => next_whenRunning hs (State.command_of_not_running hidle 11 b _),
    State.alertLow_iff⟩

/-! ## What a byte read sends and changes (R172, R180, R181) -/

section
variable {s : State} {offset : BitVec 16} {f : Field} {i : Nat}

/-- A byte outside the window reads 0 and has no effect (R180). -/
theorem State.sendAt_outside (h : fieldAt offset = none) :
    s.sendAt offset = { s with port.sent := 0, port.offset := offset + 1 } := by
  simp only [State.sendAt, State.readEffect, State.readByte, h]

/-- The latch serves the later bytes of the field it holds (R181). -/
theorem State.readByte_latched {bytes : List Byte} (h : fieldAt offset = some (f, i)) (hi : i ≠ 0)
    (hlatch : s.port.latch = some (f, bytes)) : s.readByte offset = byteAt bytes i := by
  simp [State.readByte, h, hlatch, hi]

/-- A first byte, and a byte of a field that the latch does not hold, is live (R181). -/
theorem State.readByte_live (h : fieldAt offset = some (f, i))
    (hlatch : i ≠ 0 → ∀ bytes : List Byte, s.port.latch ≠ some (f, bytes)) :
    s.readByte offset = byteAt (s.fieldBytes f) i := by
  simp only [State.readByte, h]
  split
  · rename_i g bytes hg
    refine if_neg fun ⟨hsame, hi⟩ => hlatch hi bytes ?_
    rw [hg, hsame]
  · rfl

/-- With the mark set the head record goes; the mark is clear in any case (R172). -/
theorem State.removeHeadRecord_eq (s : State) : s.removeHeadRecord = { s with
    incidents.records := if s.incidents.headMark = true then s.incidents.records.tail else s.incidents.records
    incidents.headMark := false } := by
  unfold State.removeHeadRecord
  split
  · rfl
  · rename_i hmark
    rw [← Bool.eq_false_of_not_eq_true hmark]

/-- The first byte of a field of several bytes latches the field, and marks the head of a queue that holds a
record (R172, R181). -/
theorem State.sendAt_first (h : fieldAt offset = some (f, 0)) (hsize : 1 < f.size) :
    s.sendAt offset = { s with
      incidents.headMark :=
        if f = .incidentHead ∧ s.incidents.records ≠ [] then true else s.incidents.headMark
      port.sent := byteAt (s.fieldBytes f) 0
      port.latch := some (f, s.fieldBytes f)
      port.offset := offset + 1 } := by
  have hmark : (s.incidents.headMark || (decide (f = .incidentHead) && s.incidentFlag))
      = if f = .incidentHead ∧ s.incidents.records ≠ [] then true else s.incidents.headMark := by
    split
    · rename_i hhead
      rw [decide_eq_true hhead.1, s.incidentFlag_iff.mpr hhead.2, Bool.true_and, Bool.or_true]
    · rename_i hother
      rw [← s.incidentFlag_iff] at hother
      simp [hother]
  have heffect : s.readEffect offset = s.latchField f := by
    simp only [State.readEffect, h, if_pos]
  rw [State.sendAt, heffect, State.readByte_live h (absurd rfl), State.latchField, if_neg hsize.ne', hmark]

/-- Any other byte leaves the latch, and the last byte of the incident head takes the marked record away
(R172, R181). -/
theorem State.sendAt_rest {sent : Byte} (h : fieldAt offset = some (f, i)) (hrest : i ≠ 0 ∨ f.size = 1)
    (hsent : s.readByte offset = sent) :
    s.sendAt offset = { s with
      incidents.records :=
        if f = .incidentHead ∧ i = 22 ∧ s.incidents.headMark = true then s.incidents.records.tail
        else s.incidents.records
      incidents.headMark := if f = .incidentHead ∧ i = 22 then false else s.incidents.headMark
      port.sent := sent
      port.offset := offset + 1 } := by
  have heffect : s.readEffect offset
      = if f = .incidentHead ∧ i = 22 then s.removeHeadRecord else s := by
    simp only [State.readEffect, h]
    by_cases hi : i = 0
    · rw [if_pos hi, State.latchField, if_pos (hrest.resolve_left (absurd hi)), if_neg (by omega)]
    · rw [if_neg hi]
  rw [State.sendAt, heffect, hsent]
  by_cases hlast : f = .incidentHead ∧ i = 22
  · simp only [hlast, s.removeHeadRecord_eq, true_and, and_self, if_true]
  · simp only [hlast, ← and_assoc, false_and, if_false]

end

theorem exec_fieldLatch_of_reading {s : State} (hs : s.phase = .running) (hbus : s.port.bus = .reading) :
    exec .fieldLatch s = .next (s.sendAt s.port.offset) :=
  next_whenRunning hs (by rw [hbus])

/-- Settles O50: a read outside the window, of a first byte that latches, and of any other byte. -/
theorem readsComeFromTheLatch : Obligations.ReadsComeFromTheLatch := by
  intro s hs hbus
  rw [exec_fieldLatch_of_reading hs hbus]
  refine ⟨fun houtside => ?_, fun f i hfield => ⟨fun hi hsize => ?_, fun hrest => ?_⟩⟩
  · rw [State.sendAt_outside houtside]
  · subst hi
    rw [State.sendAt_first hfield hsize]
  · refine congrArg Host.Outcome.next (State.sendAt_rest hfield hrest ?_)
    split
    · rename_i g bytes hlatch
      split
      · rename_i hheld
        obtain ⟨rfl, hi⟩ := hheld
        exact State.readByte_latched hfield hi hlatch
      · rename_i hother
        refine State.readByte_live hfield fun hi _ hheld => hother ⟨?_, hi⟩
        exact congrArg Prod.fst (Option.some.inj (hlatch.symm.trans hheld))
    · rename_i hnone
      exact State.readByte_live hfield fun _ _ hheld => nomatch hnone.symm.trans hheld

/-! ## The two rows of the incident head (R172, R196) -/

theorem fieldAt_incidentHeadFirst : fieldAt incidentHeadFirst = some (.incidentHead, 0) := by decide

theorem fieldAt_incidentHeadLast : fieldAt incidentHeadLast = some (.incidentHead, 22) := by decide

/-- A record's first byte is the low byte of its sequence number (R196). -/
theorem byteAt_incidentBytes_zero (i : Incident) :
    byteAt (incidentBytes (some i)) 0 = BitVec.ofNat 8 i.sequence.toNat := by
  simp only [incidentBytes, leBytes_succ, List.cons_append]
  rfl

theorem exec_incidentHeadLatch {s : State} (hs : s.phase = .running) :
    exec .incidentHeadLatch s = .next { s with
      incidents.headMark := if s.incidents.records ≠ [] then true else s.incidents.headMark
      port.sent := byteAt (incidentBytes s.incidents.records.head?) 0
      port.latch := some (.incidentHead, incidentBytes s.incidents.records.head?)
      port.offset := 0x91 } :=
  next_whenRunning hs (by
    rw [State.sendAt_first fieldAt_incidentHeadFirst (by decide)]
    simp only [true_and]
    rfl)

theorem exec_incidentHeadRemove {s : State} (hs : s.phase = .running) :
    exec .incidentHeadRemove s = .next { s with
      incidents.records :=
        if s.incidents.headMark = true then s.incidents.records.tail else s.incidents.records
      incidents.headMark := false
      port.sent := s.readByte incidentHeadLast
      port.offset := 0xA7 } :=
  next_whenRunning hs (by
    rw [State.sendAt_rest fieldAt_incidentHeadLast (.inl (by decide)) rfl]
    simp only [true_and, and_self, if_true]
    rfl)

/-- Settles O51: the latch of the head with and without a record, and its removal with and without the mark. -/
theorem incidentHeadReadAndRemoved : Obligations.IncidentHeadReadAndRemoved := by
  intro s hs
  refine ⟨fun i rest hrecords => ?_, fun hempty => ?_, s.readByte incidentHeadLast,
    fun bytes hlatch => ?_, fun hlatch => ?_, fun hmark => ?_, fun hclear => ?_⟩
  · rw [exec_incidentHeadLatch hs, hrecords, ← byteAt_incidentBytes_zero]
    rfl
  · rw [exec_incidentHeadLatch hs, hempty]
    rfl
  · exact State.readByte_latched fieldAt_incidentHeadLast (by decide) hlatch
  · exact State.readByte_live fieldAt_incidentHeadLast fun _ => hlatch
  · rw [exec_incidentHeadRemove hs, if_pos hmark]
  · rw [exec_incidentHeadRemove hs, if_neg (by rw [hclear]; decide), ← hclear]

end Sys2Proof.Machine


namespace Sys2Proof.Machine

set_option Elab.async false

/-! ## The window map (R181, R183, R191) -/

theorem finOfNat_eq {n m : Nat} [NeZero n] {k : Fin n} (h : m = k.val) : Fin.ofNat n m = k := by
  rw [h, Fin.ofNat_val_eq_self]

/-- The bytes of a setting's field end where the next one's begin (R193). -/
theorem settingAt_settingOffset (f : SettingField) {i : Nat} (hi : i < settingSize f) :
    settingAt (settingOffset f + i) = f := by
  cases f
  all_goals
    simp only [settingOffset, settingSize] at hi ⊢
    simp (disch := omega) only [settingAt, if_pos, if_neg]

/-- A setting's field lies within its class's block of 16 bytes (R193). -/
theorem settingOffset_add_lt (f : SettingField) {i : Nat} (hi : i < settingSize f) :
    settingOffset f + i < 16 := by
  cases f <;> simp only [settingOffset, settingSize] at hi ⊢ <;> omega

/-- The offsets between which a field's row of the map stands: those of its members where it has a number, its own
bytes otherwise (R183, R191). -/
def Field.row : Field → Nat × Nat
  | .shadowEntry _ => (0x0200, 0x0400)
  | .activeEntry _ => (0x0400, 0x0800)
  | .staged _ _ => (0x0800, 0x0900)
  | .activeSettings _ => (0x0900, 0x0A00)
  | .classStatus _ => (0x0A00, 0x1000)
  | .liveCounter _ _ => (0x1000, 0x1800)
  | .liveGlobal _ => (0x1800, 0x1820)
  | .bankCounter _ _ => (0x3000, 0x3800)
  | .bankGlobal _ => (0x3800, 0x3820)
  | .slotView _ => (0x4000, 0x5000)
  | f => (f.base, f.base + f.size)

theorem Field.base_add_mem_row (f : Field) {i : Nat} (hi : i < f.size) :
    f.row.1 ≤ f.base + i ∧ f.base + i < f.row.2 := by
  cases f
  case staged c f =>
    have hblock := settingOffset_add_lt f hi
    simp only [Field.row, Field.base]
    omega
  all_goals
    simp only [Field.row, Field.size, Field.base] at hi ⊢
    omega

theorem Field.row_le (f : Field) : f.row.2 ≤ 65536 := by
  cases f <;> simp only [Field.row, Field.base, Field.size] <;> decide

theorem ite_lt_of_le {α : Type} {n lo c : Nat} {a b : α} (h : lo ≤ n) (hc : c ≤ lo) :
    (if n < c then a else b) = b :=
  if_neg (Nat.not_lt.mpr (hc.trans h))

theorem ite_lt_of_lt {α : Type} {n hi c : Nat} {a b : α} (h : n < hi) (hc : hi ≤ c) :
    (if n < c then a else b) = a :=
  if_pos (h.trans_le hc)

/-- Every byte of a field stands nearest to that field: the rows follow one another in the order of the map, and
within a row the quotient by the members' distance is the number (R183, R191). -/
theorem nearestField_base_add (f : Field) {i : Nat} (hi : i < f.size) : nearestField (f.base + i) = f := by
  obtain ⟨hlo, hhi⟩ := f.base_add_mem_row hi
  generalize hn : f.base + i = n at hlo hhi ⊢
  cases f
  all_goals
    simp only [Field.row, Field.size, Field.base] at hi hn hlo hhi
    simp only [nearestField, ite_lt_of_le hlo, ite_lt_of_lt hhi, Nat.reduceLeDiff, Nat.reduceAdd]
  case shadowEntry | activeEntry | activeSettings | classStatus | liveGlobal | bankGlobal | slotView =>
    exact congrArg _ (finOfNat_eq (by omega))
  case liveCounter | bankCounter =>
    exact congrArg₂ _ (finOfNat_eq (by omega)) (finOfNat_eq (by omega))
  case staged c f =>
    have hblock := settingOffset_add_lt f hi
    have hplace : n % 16 = settingOffset f + i := by omega
    rw [hplace, settingAt_settingOffset f hi]
    exact congrArg (Field.staged · f) (finOfNat_eq (by omega))

theorem fieldAt_base_add (f : Field) {i : Nat} (hi : i < f.size) :
    fieldAt (BitVec.ofNat 16 (f.base + i)) = some (f, i) := by
  have hoffset : (BitVec.ofNat 16 (f.base + i)).toNat = f.base + i := by
    rw [BitVec.toNat_ofNat, Nat.mod_eq_of_lt ((f.base_add_mem_row hi).2.trans_le f.row_le)]
  simp only [fieldAt, hoffset, nearestField_base_add f hi]
  rw [if_pos ⟨by omega, by omega⟩, Nat.add_sub_cancel_left]

/-- The place that an offset names, read back (R191). -/
theorem toNat_eq_of_fieldAt {offset : BitVec 16} {f : Field} {i : Nat} (h : fieldAt offset = some (f, i)) :
    offset.toNat = f.base + i := by
  unfold fieldAt at h
  dsimp only at h
  split at h
  · rename_i hwithin
    cases h
    omega
  · cases h

/-- Settles O59: each byte of a field is found at its own offset, and only there. -/
theorem windowMapIsOneToOne : Obligations.WindowMapIsOneToOne :=
  ⟨fun f _ hi => fieldAt_base_add f hi, fun _ _ _ h => ⟨toNat_eq_of_fieldAt h, lt_size_of_fieldAt h⟩,
    State.length_fieldBytes⟩

/-! ## The resets (R178, R189, R190) -/

/-- While the part is held in reset every event but the resets and the reset's end leaves the state as it
was (R189). -/
theorem exec_of_held {s : State} (hs : s.phase ≠ .running) {c : Instr} (hpower : c ≠ .powerOnReset)
    (hend : ∀ p : BitVec 2, c ≠ .resetEnd p) : exec c s = .next s := by
  have hheld (f : State → State) :
      (.next (s.whenRunning f) : Host.Outcome State Fault Refusal) = .next s :=
    congrArg Host.Outcome.next (State.whenRunning_of_reset hs f)
  cases c
  case powerOnReset => exact absurd rfl hpower
  case resetEnd p => exact absurd rfl (hend p)
  case resetNAssertion lowNs =>
    simp only [exec, execResetNAssertion, hheld, ite_self]
  all_goals exact hheld _

/-- A reset in effect ends with the straps sampled (R178, R189). -/
theorem exec_resetEnd_of_held {s : State} (hs : s.phase ≠ .running) (straps : BitVec 2) :
    exec (.resetEnd straps) s = .next { s with phase := .running, port.straps := straps } := by
  simp only [exec, execResetEnd]
  split
  · exact absurd ‹_› hs
  all_goals rfl

/-- Settles O2: the two resets, the filter of RESET_N, and the part held in reset. -/
theorem resetsTakeResetValues : Obligations.ResetsTakeResetValues := fun _ _ straps =>
  ⟨rfl,
    fun hs hlow => (if_neg (Nat.not_lt.mpr hlow)).trans (next_whenRunning hs rfl),
    fun hlow => if_pos hlow,
    fun hs => ⟨exec_resetEnd_of_held hs straps, fun _ hpower hend => exec_of_held hs hpower hend⟩⟩

end Sys2Proof.Machine


namespace Sys2Proof.Machine

set_option Elab.async false

/-! ## Transfers at the port (R178, R179, R182) -/

/-- The part's own address, as a number (R178). -/
theorem State.targetAddress_toNat (s : State) : s.targetAddress.toNat = 0x58 + s.port.straps.toNat := by
  have hstraps := s.port.straps.isLt
  have hbase : Config.i2cBaseAddress.toNat = 0x58 := rfl
  simp only [State.targetAddress, BitVec.toNat_add, BitVec.toNat_setWidth, hbase]
  omega

theorem State.eq_targetAddress_iff (s : State) (address : BitVec 7) :
    address = s.targetAddress ↔ address.toNat = 0x58 + s.port.straps.toNat := by
  rw [← s.targetAddress_toNat, BitVec.toNat_inj]

theorem State.i2cAddress_of_own {s : State} {address : BitVec 7} (h : address = s.targetAddress)
    (direction : I2cDirection) : s.i2cAddress address direction = { s with
      port.bus := match direction with
        | .write => .awaitOffset
        | .read => .reading
      port.ack := true
      port.assembly := none } :=
  (if_pos h).trans (by cases direction <;> rfl)

theorem State.i2cAddress_of_other {s : State} {address : BitVec 7} (h : address ≠ s.targetAddress)
    (direction : I2cDirection) : s.i2cAddress address direction = { s with
      port.bus := .idle
      port.ack := false
      port.assembly := none } :=
  if_neg h

/-- Two bytes, high byte first, as a number (R179). -/
theorem append_eq_ofNat (high low : Byte) : high ++ low = BitVec.ofNat 16 (256 * high.toNat + low.toNat) := by
  have hhigh := high.isLt
  have hlow := low.isLt
  apply BitVec.eq_of_toNat_eq
  rw [BitVec.toNat_append, ← Nat.shiftLeft_add_eq_or_of_lt hlow, Nat.shiftLeft_eq, BitVec.toNat_ofNat]
  omega

theorem State.offsetWrite_of_awaiting {s : State} (h : s.port.bus = .awaitOffset) (high low : Byte) :
    s.offsetWrite high low = { s with
      port.bus := .writing
      port.ack := true
      port.offset := BitVec.ofNat 16 (256 * high.toNat + low.toNat) } := by
  rw [State.offsetWrite, h, append_eq_ofNat]

/-! ## The bits of a byte on the bus (R178) -/

/-- Up to eight bits are kept for the byte in progress. -/
theorem busEvents_bits (bits more : List Bool) (h : bits.length + more.length ≤ 8)
    (rest : List BusSignal) :
    busEvents bits (more.map .bit ++ rest) = busEvents (bits ++ more) rest := by
  induction more generalizing bits with
  | nil => rw [List.append_nil]; rfl
  | cons b more ih =>
    rw [List.length_cons] at h
    have hroom : bits.length < 8 := by omega
    have hlength : (bits ++ [b]).length + more.length ≤ 8 := by
      rw [List.length_append, List.length_singleton]
      omega
    rw [List.map_cons, List.cons_append, busEvents, if_pos hroom, ih _ hlength, List.append_assoc]
    rfl

/-- Eight bits and a ninth are a byte with its acknowledge (R178). -/
theorem busEvents_byte (b : Byte) (ninth : Bool) (rest : List BusSignal) :
    busEvents [] ([7, 6, 5, 4, 3, 2, 1, 0].map (fun i => .bit (b.getLsbD i)) ++ .bit ninth :: rest)
      = .byte b (!ninth) :: busEvents [] rest := by
  have height := busEvents_bits [] ([7, 6, 5, 4, 3, 2, 1, 0].map (fun i => b.getLsbD i))
    (Nat.le_refl 8) (.bit ninth :: rest)
  rw [List.map_map, List.nil_append] at height
  have hninth : busEvents ([7, 6, 5, 4, 3, 2, 1, 0].map (fun i => b.getLsbD i)) (.bit ninth :: rest)
      = .byte (byteOfBits ([7, 6, 5, 4, 3, 2, 1, 0].map (fun i => b.getLsbD i))) (!ninth)
        :: busEvents [] rest := if_neg (Nat.lt_irrefl 8)
  rw [byteOfBits_bits] at hninth
  exact height.trans hninth

/-! ## The transfers that bytes spell (R178, R179, R180) -/

section
variable {target address : BitVec 7} {direction : I2cDirection} {b : Byte}

/-- A START from an idle bus and a first byte spell the address, and open the phase that follows it. -/
theorem busCommands_opening {acknowledged : Bool} (haddress : firstByteAddress b = address)
    (hdirection : firstByteDirection b = direction) (rest : List BusEvent) :
    busCommands target .idle (.start :: .byte b acknowledged :: rest)
      = .i2cAddress address direction :: busCommands target (phaseAfterAddress target b) rest := by
  rw [← haddress, ← hdirection]
  rfl

theorem phaseAfterAddress_write (haddress : firstByteAddress b = target)
    (hdirection : firstByteDirection b = .write) : phaseAfterAddress target b = .offsetHigh := by
  rw [phaseAfterAddress, if_pos haddress, hdirection]

theorem phaseAfterAddress_read (haddress : firstByteAddress b = target)
    (hdirection : firstByteDirection b = .read) : phaseAfterAddress target b = .reading := by
  rw [phaseAfterAddress, if_pos haddress, hdirection]

theorem phaseAfterAddress_other (haddress : firstByteAddress b ≠ target) :
    phaseAfterAddress target b = .ignoring :=
  if_neg haddress

/-- A STOP ends any phase but the idle one with the transfer's end, and a START likewise (R182). -/
theorem busEnd_of_open {phase : BusPhase} (h : phase ≠ .idle) : busEnd phase = [.transferEnd] := by
  cases phase
  case idle => exact absurd rfl h
  all_goals rfl

/-- The two offset bytes, then window bytes, then a STOP (R179). -/
theorem busCommands_writeTransfer (high low : Byte) (bytes : List Byte) (rest : List BusEvent) :
    busCommands target .offsetHigh (.byte high true :: .byte low true
        :: (bytes.map (fun x => .byte x true) ++ .stop :: rest))
      = .offsetWrite high low
        :: (bytes.map .windowWrite ++ .transferEnd :: busCommands target .idle rest) :=
  congrArg (Instr.offsetWrite high low :: ·) (busCommands_windowBytes target bytes (.stop :: rest))

/-- Bytes sent up to the one that the master does not acknowledge, what comes before the STOP ignored (R180). -/
theorem busCommands_readTransfer (bytes : List Byte) (last : Byte) (more : List (Byte × Bool))
    (rest : List BusEvent) :
    busCommands target .reading (bytes.map (fun x => .byte x true) ++ .byte last false
        :: (more.map (fun p => .byte p.1 p.2) ++ .stop :: rest))
      = List.replicate (bytes.length + 1) .fieldLatch ++ .transferEnd :: busCommands target .idle rest := by
  have hlast : busCommands target .reading
      (.byte last false :: (more.map (fun p => .byte p.1 p.2) ++ .stop :: rest))
      = .fieldLatch :: .transferEnd :: busCommands target .idle rest :=
    congrArg (Instr.fieldLatch :: ·) (busCommands_ignoredBytes target more (.stop :: rest))
  rw [busCommands_sentBytes, hlast, List.replicate_succ', List.append_assoc]
  rfl

end

/-- What the levels signal, moment after moment (R178). -/
theorem busSignal_table (x y : Bool) :
    busSignal ⟨true, true⟩ ⟨true, false⟩ = some .start
      ∧ busSignal ⟨true, false⟩ ⟨true, true⟩ = some .stop
      ∧ busSignal ⟨true, x⟩ ⟨true, x⟩ = none ∧ busSignal ⟨false, x⟩ ⟨true, y⟩ = some (.bit y)
      ∧ busSignal ⟨true, x⟩ ⟨false, y⟩ = none ∧ busSignal ⟨false, x⟩ ⟨false, y⟩ = none :=
  ⟨rfl, rfl, by cases x <;> rfl, rfl, rfl, rfl⟩

/-- Settles O47: the port's events, the signals, the bytes, and the transfers they spell. -/
theorem transfersOpenAndEnd : Obligations.TransfersOpenAndEnd := by
  refine ⟨fun s address direction high low hs => ⟨fun hown => ?_, fun hother => ?_, fun hbus => ?_, ?_⟩,
    busSignal_table, fun b ninth bits rest => ⟨busEvents_byte b ninth rest, rfl, rfl⟩,
    fun target address direction b high low last bytes more phase rest hb => ?_⟩
  · exact next_whenRunning hs (State.i2cAddress_of_own ((s.eq_targetAddress_iff address).mpr hown) direction)
  · exact next_whenRunning hs
      (State.i2cAddress_of_other (mt (s.eq_targetAddress_iff address).mp hother) direction)
  · exact next_whenRunning hs (State.offsetWrite_of_awaiting hbus high low)
  · exact next_whenRunning hs rfl
  · obtain ⟨haddress, hdirection⟩ := firstByte_eq b address direction hb
    refine ⟨?_, ?_, ?_, fun hother => ?_, fun hopen => ?_⟩
    · rintro rfl rfl
      rw [busCommands_opening haddress hdirection, phaseAfterAddress_write haddress hdirection,
        busCommands_writeTransfer]
    · rintro rfl rfl
      rw [busCommands_opening haddress hdirection, phaseAfterAddress_write haddress hdirection]
      rfl
    · rintro rfl rfl
      rw [busCommands_opening haddress hdirection, phaseAfterAddress_read haddress hdirection,
        busCommands_readTransfer]
    · rw [busCommands_opening haddress hdirection, phaseAfterAddress_other (haddress ▸ hother),
        busCommands_ignoredBytes]
      rfl
    · rw [busCommands, busEnd_of_open hopen]
      rfl

end Sys2Proof.Machine


namespace Sys2Proof.Machine

set_option Elab.async false

/-! ## The window offset stands while a field takes effect (R179, R182) -/

@[simp] theorem State.done_port_offset (s : State) (code argument : Byte) (d : Nat) :
    (s.done code argument d).port.offset = s.port.offset := rfl

@[simp] theorem State.refuse_port_offset (s : State) (code argument : Byte) (reason : Reason) (d : Nat) :
    (s.refuse code argument reason d).port.offset = s.port.offset := rfl

@[simp] theorem State.noteBudgetWaits_port (s : State) : s.noteBudgetWaits.port = s.port := by
  rw [s.noteBudgetWaits_onlyFlags.frame]

@[simp] theorem State.takeBoundary_port (s : State) (c : ClassId) (forced : Bool) :
    (s.takeBoundary c forced).port = s.port := by
  rw [(s.takeBoundary_onlyFlags c forced).frame, State.setBudget_port]

@[simp] theorem State.foldl_cancelEntry_port (q : List EntryId) (s : State) :
    (q.foldl State.cancelEntry s).port = s.port := by
  rw [State.foldl_cancelEntry_frame]

@[simp] theorem State.retryPlacement_port (s : State) : s.retryPlacement.port = s.port := by
  rw [s.retryPlacement_frame]

@[simp] theorem State.restoreDefaults_port (s : State) : s.restoreDefaults.port = s.port := rfl

@[simp] theorem State.reportStall_port (s : State) : s.reportStall.port = s.port := by
  unfold State.reportStall
  split
  · split
    · rw [State.raise_port, State.setIntake_port]
    · rfl
  all_goals rfl

/-- The port's judgement of a command moves the window offset no more than its owner does. -/
theorem State.command_offset (s : State) (code argument : Byte) {owner : State → State}
    (h : ∀ t : State, (owner t).port.offset = t.port.offset) :
    (s.command code argument owner).port.offset = s.port.offset := by
  unfold State.command
  dsimp only
  split
  · rfl
  · exact h _

theorem State.classCommand_offset (s : State) (code argument : Byte) {owner : ClassId → State → State}
    (h : ∀ (n : ClassId) (t : State), (owner n t).port.offset = t.port.offset) :
    (s.classCommand code argument owner).port.offset = s.port.offset := by
  refine s.command_offset code argument fun t => ?_
  split
  · exact h _ t
  · rfl

theorem State.takeQuiesce_offset (s : State) (argument : Byte) :
    (s.takeQuiesce argument).port.offset = s.port.offset := by
  unfold State.takeQuiesce
  split
  · rw [State.completeQuiesce_port_offset, State.setStatus_port_offset]
  all_goals rfl

theorem State.takeResume_offset (s : State) (argument : Byte) :
    (s.takeResume argument).port.offset = s.port.offset := by
  unfold State.takeResume
  split <;> rfl

theorem State.takeCommit_offset (argument : Byte) (n : ClassId) (s : State) :
    (s.takeCommit argument n).port.offset = s.port.offset := by
  unfold State.takeCommit
  split <;> rfl

theorem State.takeApply_offset (argument : Byte) (n : ClassId) (s : State) :
    (s.takeApply argument n).port.offset = s.port.offset := by
  unfold State.takeApply
  split
  · rw [State.done_port_offset, State.takeBoundary_port]
  · rfl

theorem State.takeDiscard_offset (argument : Byte) (n : ClassId) (s : State) :
    (s.takeDiscard argument n).port.offset = s.port.offset := by
  simp [State.takeDiscard]

theorem State.takeSnapshotCommand_offset (s : State) (argument : Byte) :
    (s.takeSnapshotCommand argument).port.offset = s.port.offset := by
  unfold State.takeSnapshotCommand
  split
  · rw [State.done_port_offset, State.takeSnapshot_port]
  · rw [State.refuse_port_offset, State.countGlobal_port]

theorem State.takeRelease_offset (s : State) (argument : Byte) :
    (s.takeRelease argument).port.offset = s.port.offset := by
  unfold State.takeRelease
  split <;> rfl

theorem State.takeDefaults_offset (s : State) (argument : Byte) :
    (s.takeDefaults argument).port.offset = s.port.offset := by
  unfold State.takeDefaults
  split
  · rfl
  · split
    · rfl
    · split
      · rfl
      · rw [State.retryPlacement_port, State.done_port_offset, State.restoreDefaults_port]

/-- A write of the command register, by its code (R184). -/
theorem State.writeCommand_offset (s : State) (code b : Byte) :
    (s.writeCommand code b).port.offset = s.port.offset := by
  unfold State.writeCommand
  split
  · exact s.command_offset 1 b fun t => t.takeQuiesce_offset b
  · exact s.command_offset 2 b fun t => t.takeResume_offset b
  · exact s.command_offset 3 b fun _ => rfl
  · exact s.classCommand_offset 4 b (State.takeCommit_offset b)
  · exact s.classCommand_offset 5 b (State.takeApply_offset b)
  · exact s.classCommand_offset 6 b (State.takeDiscard_offset b)
  · exact s.command_offset 7 b fun _ => rfl
  · exact s.command_offset 8 b fun t => t.takeSnapshotCommand_offset b
  · exact s.command_offset 9 b fun t => t.takeRelease_offset b
  · exact s.command_offset 10 b fun _ => rfl
  · exact s.command_offset 11 b fun _ => rfl
  · exact s.command_offset 12 b fun t => t.takeDefaults_offset b
  · exact s.command_offset code b fun _ => rfl

/-- No field's owner moves the window offset: it is the transfer's (R179). -/
theorem State.takeField_offset (s : State) (f : Field) (bytes : List Byte) :
    (s.takeField f bytes).port.offset = s.port.offset := by
  cases f
  case stallLimit =>
    exact congrArg Port.offset (State.reportStall_port { s with intake.stallLimit := _ })
  case boundaries =>
    simp only [State.takeField, State.writeBoundaries]
    split
    · rfl
    · rw [State.raise_port]
  case command => exact s.writeCommand_offset _ _
  case shadowEntry e => exact congrArg (·.port.offset) (s.writeShadow_eq e _)
  all_goals rfl

/-! ## A byte of a field (R182) -/

section
variable {s : State} {f : Field} {i : Nat} {earlier : List Byte}

/-- A byte in order joins the bytes before it: none for a field's first byte, all the earlier ones for a later
byte (R182). -/
theorem State.assembled_of_in_order (hlength : earlier.length = i)
    (hearlier : i ≠ 0 → s.port.assembly = some (f, earlier)) (b : Byte) :
    s.assembled f i b = some (earlier ++ [b]) := by
  unfold State.assembled
  split
  · rename_i hi
    rw [List.length_eq_zero_iff.mp (hlength.trans hi), List.nil_append]
  · rename_i hi
    rw [hearlier hi]
    exact if_pos ⟨rfl, hlength⟩

theorem State.assembled_of_out_of_order (hi : i ≠ 0)
    (hearlier : ∀ part : List Byte, s.port.assembly = some (f, part) → part.length ≠ i) (b : Byte) :
    s.assembled f i b = none := by
  rw [State.assembled, if_neg hi]
  split
  · rename_i g part hpart
    refine if_neg fun ⟨hfield, hlength⟩ => hearlier part ?_ hlength
    rw [hpart, hfield]
  · rfl

/-- The last byte of a field in order hands the whole value over (R182). -/
theorem State.writeByte_last {bytes : List Byte} {b : Byte} (hwritable : f.writable = true)
    (hbytes : s.assembled f i b = some bytes) (hlast : i + 1 = f.size) :
    s.writeByte f i b = (s.setAssembly none).takeField f bytes := by
  have hlength := State.length_assembled hbytes
  rw [State.writeByte, if_pos hwritable, hbytes]
  exact if_pos (hlength.trans hlast)

theorem State.writeByte_not_last {bytes : List Byte} {b : Byte} (hwritable : f.writable = true)
    (hbytes : s.assembled f i b = some bytes) (hmore : i + 1 < f.size) :
    s.writeByte f i b = s.setAssembly (some (f, bytes)) := by
  have hlength := State.length_assembled hbytes
  rw [State.writeByte, if_pos hwritable, hbytes]
  exact if_neg (by omega)

/-- A byte of a read-only field, or out of order, is discarded with the assembly (R182). -/
theorem State.writeByte_discarded {b : Byte} (h : f.writable = false ∨ s.assembled f i b = none) :
    s.writeByte f i b = s.setAssembly none := by
  unfold State.writeByte
  split
  · rename_i hwritable
    have hnone : s.assembled f i b = none := h.resolve_left (by rw [hwritable]; decide)
    rw [hnone]
  · rfl

end

/-! ## A byte of a write transfer (R179, R182) -/

theorem exec_windowWrite_in_field {s : State} (hs : s.phase = .running) (hbus : s.port.bus = .writing) {f : Field}
    {i : Nat} (h : fieldAt s.port.offset = some (f, i)) (b : Byte) :
    exec (.windowWrite b) s = .next ({ s with port.ack := true }.writeByte f i b).advanceOffset :=
  next_whenRunning hs (by rw [State.windowWrite, hbus]; simp only [h])

theorem exec_windowWrite_outside {s : State} (hs : s.phase = .running) (hbus : s.port.bus = .writing)
    (h : fieldAt s.port.offset = none) (b : Byte) :
    exec (.windowWrite b) s
      = .next { s with port.ack := true, port.assembly := none, port.offset := s.port.offset + 1 } :=
  next_whenRunning hs (by rw [State.windowWrite, hbus]; simp only [h]; rfl)

/-- Settles O48: a byte in order, the last one or not, and a byte that is discarded. -/
theorem windowBytesAssemble : Obligations.WindowBytesAssemble := by
  rintro s u b hs hbus rfl
  refine ⟨fun f i earlier hfield hwritable hlength hearlier => ?_, fun hdiscarded => ?_⟩
  · have hbytes : State.assembled { s with port.ack := true } f i b = some (earlier ++ [b]) :=
      State.assembled_of_in_order hlength hearlier b
    rw [exec_windowWrite_in_field hs hbus hfield]
    refine ⟨fun hlast => ?_, fun hmore => ?_⟩
    · rw [State.writeByte_last hwritable hbytes hlast, State.advanceOffset, State.takeField_offset]
      rfl
    · rw [State.writeByte_not_last hwritable hbytes hmore]
      rfl
  · cases hfield : fieldAt s.port.offset with
    | none => exact exec_windowWrite_outside hs hbus hfield b
    | some place =>
      obtain ⟨f, i⟩ := place
      have hnone : f.writable = false ∨ State.assembled { s with port.ack := true } f i b = none :=
        (hdiscarded f i hfield).imp id fun ⟨hi, hearlier⟩ => State.assembled_of_out_of_order hi hearlier b
      rw [exec_windowWrite_in_field hs hbus hfield, State.writeByte_discarded hnone]
      rfl

end Sys2Proof.Machine


namespace Sys2Proof.Machine

set_option Elab.async false

/-! ## The rows of the command register (R184, R193) -/

/-- The row of a command is the write of its code and argument to the command register (R184, R193). -/
theorem exec_eq_writeCommand {s : State} (hs : s.phase = .running) {c : Instr} {code b : Byte}
    (h : commandBytes c = some (code, b)) : exec c s = .next (s.writeCommand code b) := by
  cases c
  case unknownCommandCode | quiesce | resume | mapSwap | classCommit | classApply | classDiscard | purge
      | snapshot | snapshotRelease | statsClear | incidentsClear | defaults =>
    cases h
    exact next_whenRunning hs rfl
  all_goals cases h

theorem State.classCommand_eq_command (s : State) (code b : Byte) (owner : ClassId → State → State) :
    ∃ judged : State → State, s.classCommand code b owner = s.command code b judged := ⟨_, rfl⟩

/-- Whatever the code, the port judges the write before an owner takes it (R184). -/
theorem State.writeCommand_eq_command (s : State) (code b : Byte) :
    ∃ owner : State → State, s.writeCommand code b = s.command code b owner := by
  unfold State.writeCommand
  split
  case h_13 => exact ⟨_, rfl⟩
  case h_4 hcode | h_5 hcode | h_6 hcode =>
    obtain rfl := code_eq_of_toNat hcode
    exact s.classCommand_eq_command _ b _
  all_goals
    rename_i hcode
    obtain rfl := code_eq_of_toNat hcode
    exact ⟨_, rfl⟩

/-- A count of 8 bits that stays at its largest value is the increase, cut there (R185). -/
theorem saturating_succ8_eq (n : BitVec 8) :
    (if n = 255 then 255 else n + 1) = BitVec.ofNat 8 (min 255 (n.toNat + 1)) := by
  split
  · rename_i hfull
    rw [hfull]
    rfl
  · bv_omega

/-- While the status is RUNNING every command but RESUME is refused BUSY (R184, R185). -/
theorem State.writeCommand_of_busy {s : State} (hbusy : s.port.status.state = .running) {code : Byte}
    (hcode : code ≠ 2) (b : Byte) : s.writeCommand code b = { s with
      port.commandCode := code
      port.commandArgument := b
      port.status.busyRefusals := BitVec.ofNat 8 (min 255 (s.port.status.busyRefusals.toNat + 1))
      port.status.busyCode := code } := by
  obtain ⟨owner, howner⟩ := s.writeCommand_eq_command code b
  rw [howner, ← saturating_succ8_eq]
  exact if_pos ⟨hbusy, hcode⟩

/-- A code that names no command is refused with detail 1 (R184). -/
theorem State.writeCommand_of_unknown {s : State} (hidle : s.port.status.state ≠ .running) {code : Byte}
    (hcode : code.toNat = 0 ∨ 13 ≤ code.toNat) (b : Byte) :
    s.writeCommand code b = { s with port := s.portAfter code b .refused .badArgument 1 } := by
  have hunknown : s.writeCommand code b = s.commandUnknown code b := by
    unfold State.writeCommand
    split
    case h_13 => rfl
    all_goals omega
  exact hunknown.trans (State.command_of_not_running hidle code b _)

/-- A class above 15 is refused with detail 2 (R184). -/
theorem State.classCommand_of_no_class {s : State} (hidle : s.port.status.state ≠ .running) {b : Byte}
    (hclass : 16 ≤ b.toNat) (code : Byte) (owner : ClassId → State → State) :
    s.classCommand code b owner = { s with port := s.portAfter code b .refused .badArgument 2 } :=
  (State.command_of_not_running hidle code b _).trans (if_neg (Nat.not_lt.mpr hclass))

/-- Settles O53: the refusal BUSY of any code, and the two BAD_ARGUMENTs. -/
theorem portRefusals : Obligations.PortRefusals := by
  intro s hs
  refine ⟨fun hbusy c code b hc hcode => ?_, fun hidle code b => ⟨fun hunknown => ?_, fun hclass => ?_⟩⟩
  · rw [exec_eq_writeCommand hs hc, State.writeCommand_of_busy hbusy hcode]
  · exact next_whenRunning hs (State.writeCommand_of_unknown hidle hunknown b)
  · have hrefused := State.classCommand_of_no_class hidle hclass
    exact ⟨next_whenRunning hs (hrefused 4 _), next_whenRunning hs (hrefused 5 _),
      next_whenRunning hs (hrefused 6 _)⟩

/-! ## The rows of the fields (R182, R183, R193) -/

/-- A setting that its field can carry is spelled by the field's bytes (R193). -/
theorem ofNat_ofLeBytes_setting {f : SettingField} {x : BitVec 16} (h : f.isByte = true → x.toNat < 256) :
    BitVec.ofNat 16 (ofLeBytes (leBytes (settingSize f) x.toNat)) = x := by
  cases f
  case budget | burst | period | deadline => exact ofNat_ofLeBytes_leBytes (by decide) x
  all_goals
    have hbyte : x.toNat < 256 ^ 1 := h rfl
    rw [settingSize, ofLeBytes_leBytes, Nat.mod_eq_of_lt hbyte, BitVec.ofNat_toNat, BitVec.setWidth_eq]

/-- Settles O49, field by field, and for the command register by its code. -/
theorem fieldsTakeEffectAsTheirRows : Obligations.FieldsTakeEffectAsTheirRows := by
  intro s x b c e m hs
  have hx : BitVec.ofNat 16 (ofLeBytes (leBytes 2 x.toNat)) = x := ofNat_ofLeBytes_leBytes (by decide) x
  refine ⟨next_whenRunning hs rfl, next_whenRunning hs ?_, next_whenRunning hs ?_, next_whenRunning hs rfl,
    next_whenRunning hs rfl, fun v => next_whenRunning hs ?_, next_whenRunning hs ?_,
    fun f hf => next_whenRunning hs ?_, fun i code hi => exec_eq_writeCommand hs hi⟩
  · rw [State.takeField, hx]
  · rw [State.takeField, hx]
  · rw [State.takeField, boundariesOf_flatMap]
  · rw [State.takeField, matchEntryOf_matchEntryBytes]
  · rw [State.takeField, ofNat_ofLeBytes_setting hf]

end Sys2Proof.Machine


namespace Sys2Proof.Machine

set_option Elab.async false

/-! ## The state right after reset (R189) -/

/-- Nothing is held, and the settings are the reset settings. -/
theorem reset_pristine : State.reset.Pristine 0 := ⟨reset_entry, reset_budget⟩

theorem reset_bufferSound : State.reset.BufferSound := by
  refine ⟨⟨fun e r he => ?_, nofun⟩, ?_⟩
  · rw [reset_entry] at he
    cases he
  · rw [reset_pristine.usedLines]
    exact Nat.zero_le _

theorem reset_placedInOrder : State.reset.PlacedInOrder [] := by
  refine ⟨List.nodup_nil, fun e => ?_, reset_queue, fun b rb hb => ?_⟩
  · rw [reset_entry]
    simp [HoldEntry.isQueued]
  · rw [reset_entry] at hb
    cases hb

theorem reset_headsNoted : State.reset.HeadsNoted := by
  intro c e r _ _ he
  rw [reset_entry] at he
  cases he

/-- The reset settings are valid (R76). -/
theorem Settings.reset_valid : Settings.reset.Valid := by
  unfold Settings.Valid
  decide

theorem reset_settingsSound : State.reset.SettingsSound := by
  refine ⟨fun c => ?_, ?_⟩
  · rw [reset_budget]
    exact ⟨Settings.reset_valid, nofun⟩
  · simp only [reset_budget]
    decide

theorem reset_accountsSound : State.reset.AccountsSound := by
  refine ⟨reset_bufferSound.1, fun c => ?_⟩
  rw [reset_budget]
  decide

theorem reset_obligationsSound : State.reset.ObligationsSound := by
  intro source tag
  have hnone : State.reset.openObligations source tag = 0 := by
    refine State.openObligations_eq_zero.mpr ⟨rfl, fun e => ?_, fun k => ?_, rfl⟩
    · rw [reset_entry]
      rfl
    · rw [reset_slot]
      rfl
  omega

/-- Nothing is owed after reset (R145). -/
theorem reset_answerOf (o : Owner) : State.reset.answerOf o = none := by
  cases o with
  | intake => rfl
  | entry e => simp only [State.answerOf, reset_entry]
  | slot k => simp only [State.answerOf, reset_slot]

theorem reset_answersSound : State.reset.AnswersSound := by
  refine ⟨List.nodup_nil, fun o => ?_⟩
  rw [reset_answerOf]
  simp [State.reset]

theorem reset_fabricDownSound : State.reset.FabricDownSound := fun _ =>
  ⟨rfl, reset_entry, reset_queue, fun k => .inl (by rw [reset_slot]), rfl, rfl⟩

theorem reset_creditsSound : State.reset.CreditsSound := ⟨rfl, rfl⟩

/-- The fabric link is DOWN, so the idle channel has nothing to offer (R150). -/
theorem reset_channelSound : State.reset.ChannelSound := by
  intro hup
  cases hup

/-- Settles O4, invariant by invariant. -/
theorem resetMeetsTheInvariants : Obligations.ResetMeetsTheInvariants :=
  ⟨reset_bufferSound, reset_placedInOrder, reset_headsNoted, reset_settingsSound, reset_accountsSound,
    reset_creditsSound, .of_reset rfl, .of_reset rfl, reset_obligationsSound, reset_answersSound,
    reset_channelSound, reset_fabricDownSound, State.quiesceSound_iff.mpr reset_quiesceSound,
    observersSound_of_reset rfl⟩

end Sys2Proof.Machine


namespace Sys2Proof.Machine

set_option Elab.async false

/-! # The hold side: what is held, the budgets it is forwarded by, and the heads noted for budget -/

/-- The request that a STALLED intake holds, as the pool would hold it (R69). -/
def IntakeState.stalled? : IntakeState → Option HoldRecord
  | .stalled q => some q.toRecord
  | .empty | .rejecting _ _ _ => none

/-- The pool, the budget unit, the STALLED request, and the count of the heads held for budget. -/
@[ext] structure HoldSide where
  pool : HoldPool
  budget : Vector ClassBudget 16
  stalled : Option HoldRecord
  budgetWaits : ClassId → Counter

/-- The hold side of a state. -/
def State.holdSide (s : State) : HoldSide :=
  { pool := s.pool, budget := s.budget, stalled := s.intake.register.stalled?
    budgetWaits := fun i => s.stats.live[i].get .budgetWaits }

/-! ## What no quiet update touches -/

@[simp] theorem State.holdSide_raise (s : State) (body : IncidentBody) :
    (s.raise body).holdSide = s.holdSide := by
  rw [s.raise_frame body]
  rfl

@[simp] theorem State.holdSide_chooseOffer (s : State) : s.chooseOffer.holdSide = s.holdSide := by
  rw [s.chooseOffer_eq.1]
  rfl

@[simp] theorem State.holdSide_completeQuiesce (s : State) : s.completeQuiesce.holdSide = s.holdSide := by
  unfold State.completeQuiesce
  split
  · split <;> rfl
  all_goals rfl

@[simp] theorem State.holdSide_done (s : State) (code argument : Byte) (d : Nat) :
    (s.done code argument d).holdSide = s.holdSide := rfl

/-- Every counter but budget-waits is outside the hold side. -/
theorem State.holdSide_countClass (s : State) (c : ClassId) {k : ClassCounter} (n : Nat)
    (hk : k ≠ .budgetWaits) : (s.countClass c k n).holdSide = s.holdSide := by
  refine HoldSide.ext rfl rfl rfl (funext fun i => ?_)
  exact (s.get_countClass c i k .budgetWaits n).trans (if_neg fun h => hk h.2.symm)

theorem State.holdSide_offerHold (s : State) (c : ClassId) (x : Time) :
    (s.offerHold c x).holdSide = s.holdSide := by
  refine HoldSide.ext rfl rfl rfl (funext fun i => ?_)
  simp only [State.holdSide, State.offerHold, live_set]
  split
  · rename_i hi
    rw [hi]
    rfl
  · rfl

theorem State.holdSide_offerMemory (s : State) (c : ClassId) (x : Time) :
    (s.offerMemory c x).holdSide = s.holdSide := by
  refine HoldSide.ext rfl rfl rfl (funext fun i => ?_)
  simp only [State.holdSide, State.offerMemory, live_set]
  split
  · rename_i hi
    rw [hi]
    rfl
  · rfl

/-! ### Links, deadlines, responses and the bus -/

theorem State.holdSide_fabricLinkUp (s : State) : s.fabricLinkUp.holdSide = s.holdSide := by
  unfold State.fabricLinkUp
  split
  · exact State.holdSide_raise _ _
  · rfl

theorem State.holdSide_memoryLinkUp (s : State) : s.memoryLinkUp.holdSide = s.holdSide := by
  unfold State.memoryLinkUp
  split
  · exact State.holdSide_raise _ _
  all_goals rfl

theorem State.holdSide_memoryLinkDown (s : State) : s.memoryLinkDown.holdSide = s.holdSide := by
  unfold State.memoryLinkDown
  split
  · rfl
  all_goals
    rw [State.holdSide_chooseOffer, State.holdSide_completeQuiesce, State.holdSide_raise]
    rfl

theorem State.holdSide_creditExcess (s : State) (case count : Nat) :
    (s.creditExcess case count).holdSide = s.holdSide :=
  State.holdSide_raise _ _

theorem State.holdSide_creditGrant (s : State) (n : Nat) : (s.creditGrant n).holdSide = s.holdSide := by
  unfold State.creditGrant
  split
  · rfl
  · rfl
  · exact s.holdSide_creditExcess 1 n

theorem State.holdSide_creditReturn (s : State) (k : Nat) : (s.creditReturn k).holdSide = s.holdSide := by
  unfold State.creditReturn
  split
  · rfl
  · exact s.holdSide_creditExcess 3 k
  · split
    · rfl
    · exact State.holdSide_creditExcess _ 2 k

theorem State.holdSide_expireSlot (s : State) (k : SlotId) : (s.expireSlot k).holdSide = s.holdSide := by
  unfold State.expireSlot State.expire
  split
  · split
    · dsimp only
      split
      · rw [State.holdSide_chooseOffer, State.holdSide_completeQuiesce, State.holdSide_raise]
        exact s.holdSide_countClass _ 1 (by simp)
      · rw [State.holdSide_raise]
        exact s.holdSide_countClass _ 1 (by simp)
    · rfl
  all_goals rfl

theorem State.holdSide_takeResponse (s : State) (resp : MemResponse) :
    (s.takeResponse resp).holdSide = s.holdSide := by
  unfold State.takeResponse
  split <;> rfl

theorem State.holdSide_complete (s : State) (k : SlotId) (r : SlotRecord) (overdue : Bool)
    (resp : MemResponse) : (s.complete k r overdue resp).holdSide = s.holdSide := by
  rw [State.complete, State.holdSide_chooseOffer, State.holdSide_completeQuiesce,
    State.holdSide_countClass _ _ _ (by split <;> simp), State.holdSide_offerMemory]
  rfl

theorem State.holdSide_supersede (s : State) (k : SlotId) (r : SlotRecord) (resp : MemResponse) :
    (s.supersede k r resp).holdSide = s.holdSide := by
  rw [State.supersede, State.holdSide_chooseOffer, State.holdSide_raise,
    State.holdSide_countClass _ _ _ (by simp)]
  rfl

theorem State.holdSide_absorb (s : State) (k : SlotId) (r : SlotRecord) :
    (s.absorb k r).holdSide = s.holdSide := by
  rw [State.absorb, State.holdSide_raise, State.holdSide_countClass _ _ _ (by simp)]
  rfl

theorem State.holdSide_matchWith (s : State) (resp : MemResponse) :
    (s.matchWith resp).holdSide = s.holdSide := by
  have hstray : (s.stray (tagSlot resp.tag) resp).holdSide = s.holdSide := State.holdSide_raise _ _
  unfold State.matchWith
  dsimp only
  split
  · split
    · exact s.holdSide_complete _ _ _ _
    · exact s.holdSide_supersede _ _ _
    · exact s.holdSide_supersede _ _ _
    · exact s.holdSide_absorb _ _
    · exact hstray
  · exact hstray

theorem State.holdSide_realLeaves (s : State) : s.realLeaves.holdSide = s.holdSide := by
  unfold State.realLeaves State.enterTotal
  split
  · rw [State.holdSide_chooseOffer]
    split
    · exact State.holdSide_countClass _ _ 1 (by simp)
    · rfl
  · rfl

theorem State.holdSide_i2cAddress (s : State) (address : BitVec 7) (direction : I2cDirection) :
    (s.i2cAddress address direction).holdSide = s.holdSide := by
  unfold State.i2cAddress
  split <;> rfl

theorem State.holdSide_offsetWrite (s : State) (high low : Byte) :
    (s.offsetWrite high low).holdSide = s.holdSide := by
  unfold State.offsetWrite
  split <;> rfl

theorem State.holdSide_sendAt (s : State) (offset : BitVec 16) :
    (s.sendAt offset).holdSide = s.holdSide := by
  have h : (s.readEffect offset).holdSide = s.holdSide := by
    unfold State.readEffect State.latchField State.removeHeadRecord
    split
    · rfl
    · split
      · split <;> rfl
      · split
        · split <;> rfl
        · rfl
  exact h

theorem State.holdSide_writeShadow (s : State) (e : MapIndex) (m : MatchEntry) :
    (s.writeShadow e m).holdSide = s.holdSide := by
  unfold State.writeShadow
  split <;> rfl

theorem State.holdSide_writeBoundaries (s : State) (b : Vector (BitVec 16) 7) :
    (s.writeBoundaries b).holdSide = s.holdSide := by
  unfold State.writeBoundaries
  split
  · rfl
  · exact s.holdSide_raise _

/-- A report of a stall leaves the request that stalls as it is (R71). -/
theorem State.holdSide_reportStall (s : State) : s.reportStall.holdSide = s.holdSide := by
  unfold State.reportStall
  split
  · rename_i q hq
    split
    · rw [State.holdSide_raise]
      refine HoldSide.ext rfl rfl ?_ rfl
      simp only [State.holdSide, State.setIntake_intake_register, hq]
      rfl
    · rfl
  all_goals rfl

/-- The intake goes from EMPTY to REJECTING: no request is STALLED before or after (R59). -/
theorem State.holdSide_refuseRequest {s : State} (hs : s.intake.register = .empty) (req : FabricRequest)
    (owed : RefusalStatus) (count : GlobalCounter) (body : IncidentBody) :
    (s.refuseRequest req owed count body).holdSide = s.holdSide := by
  rw [State.refuseRequest, State.holdSide_chooseOffer, State.holdSide_raise]
  refine HoldSide.ext rfl rfl ?_ rfl
  simp only [State.holdSide, hs]
  rfl

theorem State.holdSide_takeQuiesce (s : State) (argument : Byte) :
    (s.takeQuiesce argument).holdSide = s.holdSide := by
  unfold State.takeQuiesce
  split
  · rw [State.holdSide_completeQuiesce]
    rfl
  all_goals rfl

theorem State.holdSide_takeResume (s : State) (argument : Byte) :
    (s.takeResume argument).holdSide = s.holdSide := by
  unfold State.takeResume
  split <;> rfl

theorem State.holdSide_takeRelease (s : State) (argument : Byte) :
    (s.takeRelease argument).holdSide = s.holdSide := by
  unfold State.takeRelease
  split <;> rfl

end Sys2Proof.Machine


namespace Sys2Proof.Machine

set_option Elab.async false

/-! ## What an event may make of the hold side -/

/-- The events that move a request or an account and after which the head conditions are derived anew: `u` is
the state just before that. -/
inductive State.HoldMove (s u : State) : Prop
  /-- A request is placed in a FREE entry; it was STALLED or is one that R6 let pass (R20). -/
  | placed (e : EntryId) (r : HoldRecord) (hfree : s.pool.entries[e] = .free)
      (htest : s.placementTest r.cls r.kind r.data.length = true)
      (hr : r.Sound ∨ s.intake.register.stalled? = some r)
      (hu : u.holdSide = (s.placeIn e r).holdSide)
  /-- A READY head is forwarded (R109). -/
  | forwarded (c : ClassId) (e : EntryId) (r : HoldRecord) (hready : s.headCondition c = .ready)
      (hhead : s.head? c = some e) (he : s.pool.entries[e] = .queued r)
      (hu : u.holdSide = ((s.charge c r.length).removeHead c e).holdSide)
  /-- A class takes a period boundary, forced only where its staged copy passes the checks (R82, R85). -/
  | boundary (c : ClassId) (forced : Bool) (hforced : forced = true → s.failingCheck c = none)
      (hu : u.holdSide = (s.setBudget c (s.budget[c].boundary forced s.time)).holdSide)
  /-- A class queue is discarded (R34). -/
  | discarded (n : ClassId)
      (hu : u.holdSide = ((s.pool.queues[n].foldl State.cancelEntry s).setQueue n []).holdSide)

/-- Everything an event that is no reset can make of the hold side. -/
inductive State.HoldEvent : State → State → Prop
  | same {s t : State} (h : t.holdSide = s.holdSide) : s.HoldEvent t
  /-- The live records are zeroed (R163, R165). -/
  | zeroed {s t : State} (hlive : ∀ i : ClassId, t.stats.live[i] = ClassStats.zero)
      (h : t.holdSide = { s.holdSide with budgetWaits := t.holdSide.budgetWaits }) : s.HoldEvent t
  /-- A request that R6 let pass is STALLED (R68). -/
  | stalled {s t : State} (r : HoldRecord) (hr : r.Sound)
      (h : t.holdSide = { s.holdSide with stalled := some r }) : s.HoldEvent t
  /-- A CANCELLING entry is answered (R148). -/
  | answered {s t : State} (e : EntryId) (r : HoldRecord) (he : s.pool.entries[e] = .cancelling r)
      (h : t.holdSide = (s.setEntry e .free).holdSide) : s.HoldEvent t
  /-- A fabric link-down empties the pool and the intake (R38, R73). -/
  | emptied {s t : State}
      (h : t.holdSide = { s.holdSide with pool := HoldPool.empty, stalled := none }) : s.HoldEvent t
  /-- A staged setting is written, and its class's pending flag cleared (R78). -/
  | staged {s t : State} (c : ClassId) (x : Settings)
      (h : t.holdSide = (s.setBudget c { s.budget[c] with staged := x, pending := false }).holdSide) :
      s.HoldEvent t
  /-- A staged copy that passes the checks is committed (R81). -/
  | committed {s t : State} (n : ClassId) (hcheck : s.failingCheck n = none)
      (h : t.holdSide = (s.setBudget n { s.budget[n] with pending := true }).holdSide) : s.HoldEvent t
  /-- A move, after which the head conditions are derived anew; a retry's request leaves the intake. -/
  | moved {s t : State} (u v : State) (hmove : s.HoldMove u) (hv : u.noteBudgetWaits = v)
      (hstalled : t.holdSide.stalled = v.holdSide.stalled ∨ t.holdSide.stalled = none)
      (h : t.holdSide = { v.holdSide with stalled := t.holdSide.stalled }) : s.HoldEvent t
  /-- DEFAULTS restores the settings, and after that a retry may follow (R187). -/
  | restored {s t : State} (h : s.restoreDefaults.HoldEvent t) : s.HoldEvent t

theorem State.HoldEvent.refl (s : State) : s.HoldEvent s := .same rfl

theorem State.foldl_cancelEntry_withPort (q : List EntryId) (s : State) (p : Port) :
    q.foldl State.cancelEntry { s with port := p } = { q.foldl State.cancelEntry s with port := p } := by
  induction q generalizing s with
  | nil => rfl
  | cons a q ih => exact ih (s.cancelEntry a)

/-- The port is no part of the hold side, before or after. -/
theorem State.HoldMove.of_port {s u : State} (p : Port) (h : { s with port := p }.HoldMove u) :
    s.HoldMove u := by
  cases h with
  | placed e r hfree htest hr hu => exact .placed e r hfree htest hr hu
  | forwarded c e r hready hhead he hu =>
    refine .forwarded c e r hready hhead he (hu.trans ?_)
    unfold State.charge
    dsimp only
    split <;> rfl
  | boundary c forced hforced hu => exact .boundary c forced hforced hu
  | discarded n hu =>
    refine .discarded n (hu.trans ?_)
    rw [State.foldl_cancelEntry_withPort]
    rfl

theorem State.HoldEvent.of_port {s t : State} (p p' : Port) (h : { s with port := p }.HoldEvent t) :
    s.HoldEvent { t with port := p' } := by
  generalize hs : { s with port := p } = s' at h
  induction h generalizing s with
  | same h => subst hs; exact .same h
  | zeroed hlive h => subst hs; exact .zeroed hlive h
  | stalled r hr h => subst hs; exact .stalled r hr h
  | answered e r he h => subst hs; exact .answered e r he h
  | emptied h => subst hs; exact .emptied h
  | staged c x h => subst hs; exact .staged c x h
  | committed n hcheck h => subst hs; exact .committed n hcheck h
  | moved u v hmove hv hstalled h => subst hs; exact .moved u v (hmove.of_port p) hv hstalled h
  | restored h ih => subst hs; exact .restored (ih rfl)

/-! ### The intake -/

/-- A request that R6 lets pass is sound (R6, R18). -/
theorem State.accepted_sound {req : FabricRequest} (h : malformation req = none) (s : State) :
    (s.accepted req).toRecord.Sound := by
  have hrows := malformation_correct req
  rw [h] at hrows
  obtain ⟨kind, hk⟩ := Option.ne_none_iff_exists'.mp (hrows 1)
  have hkind : requestKind req = kind := by rw [requestKind, hk]; rfl
  have hlength := hrows 2
  have haddress := hrows 3
  have hatomic := mt (requestFails_four hk).mpr (hrows 4)
  have hpage := hrows 5
  have hdata := mt (requestFails_six hk).mpr (hrows 6)
  simp only [requestFails] at hlength haddress hpage
  simp only [HoldRecord.Sound, StalledRequest.toRecord, State.accepted, hkind]
  refine ⟨by omega, by omega, by omega, by omega, fun ha => ?_, not_not.mp hdata⟩
  by_contra hne
  exact hatomic ⟨ha, hne⟩

/-- What a request taken by the pool makes of the hold side (R20). -/
theorem State.holdMove_of_tryPlace {s t : State} {r : HoldRecord} (h : s.tryPlace r = some t)
    (hr : r.Sound ∨ s.intake.register.stalled? = some r) :
    ∃ u : State, s.HoldMove u ∧ u.noteBudgetWaits = t := by
  unfold State.tryPlace at h
  split at h
  · rename_i htest
    split at h
    · rename_i e he
      exact ⟨s.placeIn e r, .placed e r ((s.lowestFreeEntry_eq_some e).mp he).1 htest hr rfl,
        Option.some.inj h⟩
    · cases h
  · cases h

/-- A move, and quiet updates after the head conditions are derived anew. -/
theorem State.HoldMove.then_quiet {s u v t : State} (h : s.HoldMove u) (hv : u.noteBudgetWaits = v)
    (ht : t.holdSide = v.holdSide) : s.HoldEvent t := by
  refine .moved u v h hv (.inl ?_) ?_ <;> rw [ht]

theorem State.HoldMove.noted {s u : State} (h : s.HoldMove u) : s.HoldEvent u.noteBudgetWaits :=
  h.then_quiet rfl rfl

/-- A move of a STALLED request, its episode ended (R69, R72). -/
theorem State.HoldMove.then_endStall {s u v : State} (h : s.HoldMove u) (hv : u.noteBudgetWaits = v)
    (q : StalledRequest) : s.HoldEvent (v.endStall q) := by
  refine .moved u v h hv (.inr rfl) ?_
  rw [State.endStall, State.holdSide_countClass _ _ _ (by simp)]
  rfl

theorem State.retryPlacement_holdEvent (s : State) : s.HoldEvent s.retryPlacement := by
  unfold State.retryPlacement
  split
  · rename_i q hq
    split
    · rename_i t ht
      obtain ⟨u, hmove, hu⟩ := State.holdMove_of_tryPlace ht (.inr (by rw [hq]; rfl))
      exact hmove.then_endStall hu q
    · exact .refl s
  all_goals exact .refl s

theorem State.acceptRequest_holdEvent (s : State) {req : FabricRequest} (h : malformation req = none) :
    s.HoldEvent (s.acceptRequest req) := by
  unfold State.acceptRequest
  split
  · rename_i t ht
    obtain ⟨u, hmove, hu⟩ := State.holdMove_of_tryPlace ht (.inl (State.accepted_sound h s))
    exact hmove.then_quiet hu rfl
  · exact .stalled _ (State.accepted_sound h s) rfl

theorem State.arrive_holdEvent (s : State) (req : FabricRequest) : s.HoldEvent (s.arrive req) := by
  unfold State.arrive
  split
  · rename_i hempty _
    split
    · exact .same (State.holdSide_refuseRequest hempty _ _ _ _)
    · rename_i hwell
      split
      · exact .same (State.holdSide_refuseRequest hempty _ _ _ _)
      · exact s.acceptRequest_holdEvent hwell
  · exact .refl s

/-! ### The fabric link, and what leaves -/

theorem State.fabricLinkDown_holdEvent (s : State) : s.HoldEvent s.fabricLinkDown := by
  unfold State.fabricLinkDown
  split
  · exact .refl s
  · refine .emptied ?_
    rw [State.holdSide_completeQuiesce, State.holdSide_raise]
    have hintake : s.dropIntake.budget = s.budget ∧ s.dropIntake.intake.register.stalled? = none
        ∧ s.dropIntake.holdSide.budgetWaits = s.holdSide.budgetWaits := by
      unfold State.dropIntake State.endStall
      split
      · refine ⟨rfl, rfl, ?_⟩
        rw [State.holdSide_countClass _ _ _ (by simp)]
        rfl
      all_goals exact ⟨rfl, rfl, rfl⟩
    obtain ⟨hbudget, hstalled, hwaits⟩ := hintake
    exact HoldSide.ext rfl hbudget hstalled hwaits

/-- An answered owner leaves the hold side as it is, but for a CANCELLING entry (R148). -/
theorem State.ownerAnswered_holdEvent (s : State) (x : ResponseReturn) (o : Owner) {t : State}
    (ht : t.holdSide = ({ s with ret := x }.ownerAnswered o).holdSide) : s.HoldEvent t := by
  unfold State.ownerAnswered at ht
  split at ht
  · split at ht
    · rename_i hr
      refine .same (ht.trans (HoldSide.ext rfl rfl ?_ rfl))
      dsimp only at hr
      simp only [State.holdSide, hr]
      rfl
    all_goals exact .same ht
  · split at ht
    · exact .answered _ _ ‹_› ht
    all_goals exact .same ht
  · split at ht <;> exact .same ht

theorem State.answerLeaves_holdEvent (s : State) : s.HoldEvent s.answerLeaves := by
  unfold State.answerLeaves
  split
  · exact s.ownerAnswered_holdEvent _ _ (State.holdSide_chooseOffer _)
  · exact .refl s

/-! ### The commands of the command register (R184) -/

theorem State.takeCommit_holdEvent (argument : Byte) (n : ClassId) (s : State) :
    s.HoldEvent (s.takeCommit argument n) := by
  unfold State.takeCommit
  split
  · exact .committed n ‹_› rfl
  · exact .same rfl

theorem State.takeBoundary_holdEvent (s : State) (c : ClassId) (forced : Bool)
    (hforced : forced = true → s.failingCheck c = none) : s.HoldEvent (s.takeBoundary c forced) :=
  (State.HoldMove.boundary c forced hforced rfl).noted

theorem State.takeApply_holdEvent (argument : Byte) (n : ClassId) (s : State) :
    s.HoldEvent (s.takeApply argument n) := by
  unfold State.takeApply
  split
  · rename_i hcheck
    exact (State.HoldMove.boundary n true (fun _ => hcheck) rfl).then_quiet rfl
      (State.holdSide_done _ 5 argument 0)
  · exact .same rfl

theorem State.takeDiscard_holdEvent (argument : Byte) (n : ClassId) (s : State) :
    s.HoldEvent (s.takeDiscard argument n) := by
  have hmove : s.HoldMove ((((s.pool.queues[n].foldl State.cancelEntry s).setQueue n []).joinAnswers
      (s.pool.queues[n].map Owner.entry)).countClass n .cancelled s.pool.queues[n].length) :=
    .discarded n (State.holdSide_countClass _ _ _ (by simp))
  refine hmove.then_quiet rfl ?_
  rw [State.takeDiscard, State.holdSide_chooseOffer, State.holdSide_done]

/-- The live records are zeroed, and the bank may take a copy (R163, R165). -/
theorem State.zeroed_holdEvent {s t : State} (hpool : t.pool = s.pool) (hbudget : t.budget = s.budget)
    (hintake : t.intake = s.intake) (hlive : t.stats.live = Vector.replicate 16 ClassStats.zero) :
    s.HoldEvent t := by
  refine .zeroed (fun i => ?_) (HoldSide.ext hpool hbudget ?_ rfl)
  · simp [hlive]
  · simp only [State.holdSide, hintake]

theorem State.takeSnapshotCommand_holdEvent (s : State) (argument : Byte) :
    s.HoldEvent (s.takeSnapshotCommand argument) := by
  unfold State.takeSnapshotCommand
  split
  · exact State.zeroed_holdEvent rfl rfl rfl rfl
  · exact .same rfl

theorem State.autoExpiry_holdEvent (s : State) : s.HoldEvent s.autoExpiry := by
  unfold State.autoExpiry
  split
  · exact State.zeroed_holdEvent rfl rfl rfl rfl
  · exact .same (State.holdSide_raise _ _)

theorem State.takeDefaults_holdEvent (s : State) (argument : Byte) :
    s.HoldEvent (s.takeDefaults argument) := by
  unfold State.takeDefaults
  split
  · exact .same rfl
  · split
    · exact .same rfl
    · split
      · exact .same rfl
      · have h := (s.restoreDefaults.done 12 argument 0).retryPlacement_holdEvent
        exact .restored (State.HoldEvent.of_port (s := s.restoreDefaults) _ _ h)

/-- At the port's judgement of a command the hold side changes as at the owner (R184). -/
theorem State.command_holdEvent (s : State) (code argument : Byte) {owner : State → State}
    (h : ∀ t : State, t.HoldEvent (owner t)) : s.HoldEvent (s.command code argument owner) := by
  unfold State.command
  dsimp only
  split
  · exact .same rfl
  · exact State.HoldEvent.of_port (s := s) _ _ (h _)

theorem State.classCommand_holdEvent (s : State) (code argument : Byte)
    {owner : ClassId → State → State} (h : ∀ (n : ClassId) (t : State), t.HoldEvent (owner n t)) :
    s.HoldEvent (s.classCommand code argument owner) := by
  refine s.command_holdEvent code argument fun t => ?_
  split
  · exact h _ t
  · exact .same rfl

theorem State.writeCommand_holdEvent (s : State) (code b : Byte) :
    s.HoldEvent (s.writeCommand code b) := by
  unfold State.writeCommand
  split
  · exact s.command_holdEvent 1 b fun t => .same (t.holdSide_takeQuiesce b)
  · exact s.command_holdEvent 2 b fun t => .same (t.holdSide_takeResume b)
  · exact s.command_holdEvent 3 b fun _ => .same rfl
  · exact s.classCommand_holdEvent 4 b fun n t => t.takeCommit_holdEvent b n
  · exact s.classCommand_holdEvent 5 b fun n t => t.takeApply_holdEvent b n
  · exact s.classCommand_holdEvent 6 b fun n t => t.takeDiscard_holdEvent b n
  · exact s.command_holdEvent 7 b fun _ => .same rfl
  · exact s.command_holdEvent 8 b fun t => t.takeSnapshotCommand_holdEvent b
  · exact s.command_holdEvent 9 b fun t => .same (t.holdSide_takeRelease b)
  · exact s.command_holdEvent 10 b fun _ => State.zeroed_holdEvent rfl rfl rfl rfl
  · exact s.command_holdEvent 11 b fun _ => .same rfl
  · exact s.command_holdEvent 12 b fun t => t.takeDefaults_holdEvent b
  · exact s.command_holdEvent code b fun _ => .same rfl

/-! ### Fields, FORWARDING, and every command -/

theorem State.writeStallLimit_holdEvent (s : State) (v : BitVec 16) :
    s.HoldEvent (s.writeStallLimit v) :=
  .same (State.holdSide_reportStall { s with intake.stallLimit := v })

theorem State.takeField_holdEvent (s : State) (f : Field) (bytes : List Byte) :
    s.HoldEvent (s.takeField f bytes) := by
  cases f
  case stallLimit => exact s.writeStallLimit_holdEvent _
  case boundaries => exact .same (s.holdSide_writeBoundaries _)
  case command => exact s.writeCommand_holdEvent _ _
  case shadowEntry e => exact .same (s.holdSide_writeShadow e _)
  case staged c f => exact .staged c _ rfl
  all_goals exact .same rfl

theorem State.writeByte_holdEvent (s : State) (f : Field) (i : Nat) (b : Byte) :
    s.HoldEvent (s.writeByte f i b) := by
  unfold State.writeByte
  split
  · split
    · split
      · exact State.HoldEvent.of_port (s := s) _ _ (State.takeField_holdEvent (s.setAssembly none) f _)
      · exact .same rfl
    · exact .same rfl
  · exact .same rfl

theorem State.windowWrite_holdEvent (s : State) (b : Byte) : s.HoldEvent (s.windowWrite b) := by
  unfold State.windowWrite
  split
  · cases fieldAt s.port.offset with
    | none => exact .same rfl
    | some p =>
      have h : { s with port.ack := true }.HoldEvent ({ s with port.ack := true }.writeByte p.1 p.2 b) :=
        State.writeByte_holdEvent { s with port.ack := true } p.1 p.2 b
      exact State.HoldEvent.of_port (s := s) _ _ h
  all_goals exact .refl s

/-- In METER mode a forwarding charges its class's account, and no other (R87). -/
theorem State.charge_budget (s : State) (c : ClassId) (length : Nat) :
    (s.charge c length).budget = if s.budget[c].active.isMeter = true then
      s.budget.set c { s.budget[c] with account := s.budget[c].account - length } else s.budget := by
  unfold State.charge
  split <;> rfl

/-- What a forwarding makes of the pool depends on the pool only (R33). -/
theorem State.removeHead_pool_congr {s t : State} (h : t.pool = s.pool) (c : ClassId) (e : EntryId) :
    (t.removeHead c e).pool = (s.removeHead c e).pool := by
  simp only [State.removeHead, State.setQueue, State.dropFromWaitLists, State.setEntry, h]

theorem State.forwardChoice_holdEvent (s : State) : s.HoldEvent s.forwardChoice := by
  rcases s.forwardChoice_cases with h | ⟨c, e, r, k, hready, hhead, he, h⟩ <;> rw [h]
  · exact .refl s
  · refine (State.HoldMove.forwarded c e r hready hhead he ?_).noted
    rw [State.holdSide_offerHold, State.holdSide_countClass _ _ _ (by simp),
      State.holdSide_countClass _ _ _ (by simp)]
    refine HoldSide.ext (State.removeHead_pool_congr ?_ c e) ?_ ?_ ?_
    · rw [State.charge_pool, State.charge_pool]
      rfl
    · simp only [State.holdSide, State.send_budget, State.removeHead_budget, State.charge_budget]
      rfl
    · simp only [State.holdSide, State.send_intake, State.removeHead_intake, State.charge_intake]
      rfl
    · simp only [State.holdSide, State.send_stats, State.removeHead_stats, State.charge_stats]
      rfl

theorem holdEvent_of_whenRunning {s t : State} {f : State → State}
    (h : (.next (s.whenRunning f) : Host.Outcome State Fault Refusal) = .next t)
    (hf : s.HoldEvent (f s)) : s.HoldEvent t :=
  of_whenRunning s.HoldEvent h (.refl s) hf

theorem sameHold_of_whenRunning {s t : State} {f : State → State}
    (h : (.next (s.whenRunning f) : Host.Outcome State Fault Refusal) = .next t)
    (hf : (f s).holdSide = s.holdSide) : s.HoldEvent t :=
  holdEvent_of_whenRunning h (.same hf)

/-- Every command but a reset makes of the hold side what an event may make of it. -/
theorem exec_holdEvent {c : Instr} {s t : State} (h : exec c s = .next t) (hreset : isReset c = false) :
    s.HoldEvent t := by
  cases c
  case resetEnd straps =>
    cases h
    split
    · exact .refl s
    all_goals exact .same rfl
  case fabricLinkUp => exact sameHold_of_whenRunning h s.holdSide_fabricLinkUp
  case fabricLinkDown => exact holdEvent_of_whenRunning h s.fabricLinkDown_holdEvent
  case memoryLinkUp => exact sameHold_of_whenRunning h s.holdSide_memoryLinkUp
  case memoryLinkDown => exact sameHold_of_whenRunning h s.holdSide_memoryLinkDown
  case creditGrant m => exact sameHold_of_whenRunning h (s.holdSide_creditGrant _)
  case creditReturn m => exact sameHold_of_whenRunning h (s.holdSide_creditReturn _)
  case fabricRequestArrival req => exact holdEvent_of_whenRunning h (s.arrive_holdEvent req)
  case placementRetry => exact holdEvent_of_whenRunning h s.retryPlacement_holdEvent
  case intakeStall => exact sameHold_of_whenRunning h s.holdSide_reportStall
  case periodBoundary cls =>
    refine holdEvent_of_whenRunning h ?_
    split
    · exact s.takeBoundary_holdEvent cls false nofun
    · exact .refl s
  case forwarding => exact holdEvent_of_whenRunning h s.forwardChoice_holdEvent
  case deadlineExpiry slot => exact sameHold_of_whenRunning h (s.holdSide_expireSlot slot)
  case memoryResponseTaken resp => exact sameHold_of_whenRunning h (s.holdSide_takeResponse resp)
  case matchResponse =>
    refine sameHold_of_whenRunning h ?_
    split
    · exact s.holdSide_matchWith _
    all_goals rfl
  case quiesceCompletion => exact sameHold_of_whenRunning h s.holdSide_completeQuiesce
  case realResponseLeaves => exact sameHold_of_whenRunning h s.holdSide_realLeaves
  case answerLeaves => exact holdEvent_of_whenRunning h s.answerLeaves_holdEvent
  case autoSnapshotExpiry =>
    refine holdEvent_of_whenRunning h ?_
    split
    · exact s.autoExpiry_holdEvent
    · exact .refl s
  case i2cAddress address direction =>
    exact sameHold_of_whenRunning h (s.holdSide_i2cAddress address direction)
  case offsetWrite high low => exact sameHold_of_whenRunning h (s.holdSide_offsetWrite high low)
  case windowWrite byte => exact holdEvent_of_whenRunning h (s.windowWrite_holdEvent byte)
  case fieldLatch =>
    refine sameHold_of_whenRunning h ?_
    split
    · exact s.holdSide_sendAt _
    all_goals rfl
  case incidentHeadLatch => exact sameHold_of_whenRunning h (s.holdSide_sendAt _)
  case incidentHeadRemove => exact sameHold_of_whenRunning h (s.holdSide_sendAt _)
  case stagedSettingWrite cls f v => exact holdEvent_of_whenRunning h (.staged cls _ rfl)
  case shadowEntryWrite index value =>
    exact sameHold_of_whenRunning h (s.holdSide_writeShadow index value)
  case stallLimitWrite value => exact holdEvent_of_whenRunning h (s.writeStallLimit_holdEvent value)
  case histogramBoundariesWrite values =>
    exact sameHold_of_whenRunning h (s.holdSide_writeBoundaries values)
  case quiesce b => exact holdEvent_of_whenRunning h (s.writeCommand_holdEvent 1 b)
  case resume b => exact holdEvent_of_whenRunning h (s.writeCommand_holdEvent 2 b)
  case mapSwap b => exact holdEvent_of_whenRunning h (s.writeCommand_holdEvent 3 b)
  case classCommit b => exact holdEvent_of_whenRunning h (s.writeCommand_holdEvent 4 b)
  case classApply b => exact holdEvent_of_whenRunning h (s.writeCommand_holdEvent 5 b)
  case classDiscard b => exact holdEvent_of_whenRunning h (s.writeCommand_holdEvent 6 b)
  case purge b => exact holdEvent_of_whenRunning h (s.writeCommand_holdEvent 7 b)
  case snapshot b => exact holdEvent_of_whenRunning h (s.writeCommand_holdEvent 8 b)
  case snapshotRelease b => exact holdEvent_of_whenRunning h (s.writeCommand_holdEvent 9 b)
  case statsClear b => exact holdEvent_of_whenRunning h (s.writeCommand_holdEvent 10 b)
  case incidentsClear b => exact holdEvent_of_whenRunning h (s.writeCommand_holdEvent 11 b)
  case defaults b => exact holdEvent_of_whenRunning h (s.writeCommand_holdEvent 12 b)
  case unknownCommandCode code b => exact holdEvent_of_whenRunning h (s.writeCommand_holdEvent code b)
  case sendCompletion | transferEnd | defaultClassWrite | autoSnapshotIntervalWrite | alertFlagsWrite
      | alertEnablesWrite | timeCountAdvance =>
    exact sameHold_of_whenRunning h rfl
  all_goals cases hreset

/-- A reset that is taken leaves the hold side at its reset value (R189). -/
theorem exec_holdSide_of_reset {c : Instr} {s t : State} (h : exec c s = .next t)
    (hreset : isReset c = true) :
    t.holdSide = s.holdSide ∨ t.holdSide = State.reset.holdSide := by
  cases c
  case powerOnReset =>
    cases h
    exact .inr rfl
  case resetNAssertion lowNs =>
    simp only [exec, execResetNAssertion] at h
    split at h
    · cases h
      exact .inl rfl
    · exact of_whenRunning (fun u => u.holdSide = s.holdSide ∨ u.holdSide = State.reset.holdSide) h
        (.inl rfl) (.inr rfl)
  all_goals cases hreset

end Sys2Proof.Machine


namespace Sys2Proof.Machine

set_option Elab.async false

/-! ## Sound requests and the write data buffer (R18, R32) -/

/-- The request an entry holds, if any, is sound. -/
def HoldEntry.Sound (x : HoldEntry) : Prop := ∀ r : HoldRecord, x.record? = some r → r.Sound

theorem HoldEntry.sound_free : HoldEntry.free.Sound := nofun

theorem HoldEntry.sound_queued {r : HoldRecord} : (HoldEntry.queued r).Sound ↔ r.Sound := by
  simp [HoldEntry.Sound, HoldEntry.record?]

theorem HoldEntry.sound_cancelling {r : HoldRecord} : (HoldEntry.cancelling r).Sound ↔ r.Sound := by
  simp [HoldEntry.Sound, HoldEntry.record?]

/-- The flag and the wait list are no part of the request. -/
theorem HoldEntry.sound_unflagged {x : HoldEntry} : x.unflagged.Sound ↔ x.Sound := by
  cases x with
  | free => rfl
  | queued r => exact HoldEntry.sound_queued.trans (HoldEntry.sound_queued (r := r)).symm
  | cancelling r => rfl

theorem HoldEntry.sound_dropMember {x : HoldEntry} (i : EntryId) : (x.dropMember i).Sound ↔ x.Sound := by
  cases x with
  | free => rfl
  | queued r => exact HoldEntry.sound_queued.trans (HoldEntry.sound_queued (r := r)).symm
  | cancelling r => rfl

/-- Every request held or STALLED is sound (R18). -/
def HoldSide.RequestsSound (w : HoldSide) : Prop :=
  (∀ e : EntryId, w.pool.entries[e].Sound) ∧ ∀ r : HoldRecord, w.stalled = some r → r.Sound

theorem State.requestsSound_iff {s : State} : s.RequestsSound ↔ s.holdSide.RequestsSound := by
  refine and_congr Iff.rfl ⟨fun h r hr => ?_, fun h q hq => h q.toRecord ?_⟩
  · cases hi : s.intake.register with
    | stalled q =>
      simp only [State.holdSide, hi, IntakeState.stalled?, Option.some.injEq] at hr
      exact hr ▸ h q hi
    | empty => simp only [State.holdSide, hi, IntakeState.stalled?, reduceCtorEq] at hr
    | rejecting a b c => simp only [State.holdSide, hi, IntakeState.stalled?, reduceCtorEq] at hr
  · simp only [State.holdSide, hq, IntakeState.stalled?]

/-- The lines in use in the write data buffer (R32). -/
def HoldSide.usedLines (w : HoldSide) : Nat := ∑ e : EntryId, w.pool.entries[e].lines

theorem State.usedLines_eq (s : State) : s.usedLines = s.holdSide.usedLines := by
  rw [State.usedLines, toList_eq_map_finRange, List.map_map, HoldSide.usedLines, Fin.sum_univ_def]
  rfl

/-- Where no entry holds more lines than before, no more are in use. -/
theorem HoldSide.usedLines_le {w w' : HoldSide}
    (h : ∀ e : EntryId, w'.pool.entries[e].lines ≤ w.pool.entries[e].lines) :
    w'.usedLines ≤ w.usedLines :=
  Finset.sum_le_sum fun e _ => h e

theorem HoldSide.usedLines_empty {w : HoldSide} (h : w.pool = HoldPool.empty) : w.usedLines = 0 := by
  refine Finset.sum_eq_zero fun e _ => ?_
  simp [h, HoldPool.empty, HoldEntry.lines, HoldEntry.record?]

/-- A FREE entry that is filled adds its lines to those in use. -/
theorem HoldSide.usedLines_filled {w w' : HoldSide} {e : EntryId} (he : w.pool.entries[e] = .free)
    (h : ∀ i : EntryId, i ≠ e → w'.pool.entries[i].lines = w.pool.entries[i].lines) :
    w'.usedLines = w.usedLines + w'.pool.entries[e].lines := by
  have hfree : w.pool.entries[e].lines = 0 := by rw [he]; rfl
  have hothers := Finset.sum_congr (rfl : Finset.univ.erase e = _) fun i hi =>
    h i (Finset.ne_of_mem_erase hi)
  rw [HoldSide.usedLines, HoldSide.usedLines, ← Finset.add_sum_erase _ _ (Finset.mem_univ e), hothers,
    ← Finset.add_sum_erase (f := fun i : EntryId => w.pool.entries[i].lines) _ (Finset.mem_univ e), hfree]
  omega

/-! ### What each move makes of an entry -/

theorem State.placeIn_entry (s : State) (e i : EntryId) (r : HoldRecord) :
    (s.placeIn e r).pool.entries[i] = if i = e then
      .queued { r with waitList := s.waitListFor r, waitedForBudget := false }
      else s.pool.entries[i] := entries_set _ _ _ _

theorem State.removeHead_entry (s : State) (c : ClassId) (e i : EntryId) :
    (s.removeHead c e).pool.entries[i] = if i = e then .free else s.pool.entries[i].dropMember e := by
  have hmap (v : Vector HoldEntry 192) : (v.map (HoldEntry.dropMember e))[i] = v[i].dropMember e := by
    simp
  rw [State.removeHead_pool_entries, hmap, entries_set]
  split <;> rfl

/-- The pool after a READY head is charged and removed (R33). -/
theorem State.charge_removeHead_entry (s : State) (c : ClassId) (e i : EntryId) (length : Nat) :
    ((s.charge c length).removeHead c e).pool.entries[i]
      = if i = e then .free else s.pool.entries[i].dropMember e := by
  rw [State.removeHead_entry, State.charge_pool]

/-- Deriving the head conditions anew leaves the intake alone. -/
theorem State.OnlyFlags.stalled {s t : State} (h : s.OnlyFlags t) :
    t.holdSide.stalled = s.holdSide.stalled := by
  have hintake : t.intake = s.intake := by rw [h.frame]
  simp only [State.holdSide, hintake]

theorem State.OnlyFlags.budget {s t : State} (h : s.OnlyFlags t) : t.budget = s.budget := by
  rw [h.frame]

theorem State.onlyFlags_of_noteBudgetWaits {s t : State} (h : s.noteBudgetWaits = t) : s.OnlyFlags t :=
  h ▸ s.noteBudgetWaits_onlyFlags

theorem State.OnlyFlags.queues {s t : State} (h : s.OnlyFlags t) : t.pool.queues = s.pool.queues := by
  rw [h.frame]

end Sys2Proof.Machine


namespace Sys2Proof.Machine

set_option Elab.async false

/-! ### Requests stay sound at every event -/

theorem HoldSide.RequestsSound.of_pool {w w' : HoldSide} (h : w.RequestsSound)
    (hentries : ∀ e : EntryId, w.pool.entries[e].Sound → w'.pool.entries[e].Sound)
    (hstalled : w'.stalled = w.stalled ∨ w'.stalled = none) : w'.RequestsSound := by
  obtain ⟨hheld, hstall⟩ := h
  refine ⟨fun e => hentries e (hheld e), fun r hr => ?_⟩
  rcases hstalled with hsame | hnone
  · exact hstall r (hsame ▸ hr)
  · rw [hnone] at hr
    cases hr

/-- Sound entries stay sound where a queue is discarded (R34). -/
theorem State.sound_foldl_cancelEntry {s : State} {e : EntryId} (q : List EntryId)
    (h : s.pool.entries[e].Sound) : (q.foldl State.cancelEntry s).pool.entries[e].Sound := by
  rw [State.foldl_cancelEntry_entry]
  split
  · exact HoldEntry.sound_free
  · rename_i r he
    rwa [he] at h
  · rename_i r he
    rw [he, HoldEntry.sound_queued] at h
    split
    · exact HoldEntry.sound_cancelling.mpr h
    · exact HoldEntry.sound_queued.mpr h

/-- The placed request is one that was STALLED or that R6 let pass. -/
theorem State.placed_sound {s : State} {r : HoldRecord} (hs : s.holdSide.RequestsSound)
    (hr : r.Sound ∨ s.intake.register.stalled? = some r) : r.Sound :=
  hr.elim id (hs.2 r)

theorem State.HoldMove.requestsSound {s u : State} (h : s.HoldMove u) (hs : s.holdSide.RequestsSound) :
    u.holdSide.RequestsSound := by
  cases h with
  | placed e r hfree htest hr hu =>
    rw [hu]
    refine hs.of_pool (fun i hi => ?_) (.inl rfl)
    have hrecord := State.placed_sound hs hr
    have hentry := s.placeIn_entry e i r
    simp only [State.holdSide] at hi ⊢
    rw [hentry]
    split
    · exact HoldEntry.sound_queued.mpr hrecord
    · exact hi
  | forwarded c e r hready hhead he hu =>
    rw [hu]
    refine hs.of_pool (fun i hi => ?_) (.inl ?_)
    · have hentry := s.charge_removeHead_entry c e i r.length
      simp only [State.holdSide] at hi ⊢
      rw [hentry]
      split
      · exact HoldEntry.sound_free
      · exact (HoldEntry.sound_dropMember e).mpr hi
    · simp only [State.holdSide, State.removeHead_intake, State.charge_intake]
  | boundary c forced hforced hu =>
    rw [hu]
    exact hs.of_pool (fun _ hi => hi) (.inl rfl)
  | discarded n hu =>
    have hframe := State.foldl_cancelEntry_frame s.pool.queues[n] s
    rw [hu]
    refine hs.of_pool (fun i hi => State.sound_foldl_cancelEntry _ hi) (.inl ?_)
    rw [hframe]
    rfl

/-- Deriving the head conditions anew leaves every request as it is. -/
theorem State.OnlyFlags.requestsSound {s t : State} (h : s.OnlyFlags t)
    (hs : s.holdSide.RequestsSound) : t.holdSide.RequestsSound := by
  refine hs.of_pool (fun e he => ?_) (.inl h.stalled)
  have hentry := h.entries e
  rw [← HoldEntry.sound_unflagged] at he ⊢
  exact hentry ▸ he

theorem State.HoldEvent.requestsSound {s t : State} (h : s.HoldEvent t) (hs : s.holdSide.RequestsSound) :
    t.holdSide.RequestsSound := by
  induction h with
  | same h => rwa [h]
  | zeroed hlive h =>
    rw [h]
    exact hs
  | stalled r hr h =>
    rw [h]
    exact ⟨hs.1, fun q hq => Option.some.inj hq ▸ hr⟩
  | answered e r he h =>
    rw [h]
    refine hs.of_pool (fun i hi => ?_) (.inl rfl)
    simp only [State.holdSide, State.setEntry_pool_entries, entries_set] at hi ⊢
    split
    · exact HoldEntry.sound_free
    · exact hi
  | emptied h =>
    rw [h]
    refine hs.of_pool (fun i _ => ?_) (.inr rfl)
    simp [HoldPool.empty, HoldEntry.sound_free]
  | staged c x h =>
    rw [h]
    exact hs.of_pool (fun _ hi => hi) (.inl rfl)
  | committed n hcheck h =>
    rw [h]
    exact hs.of_pool (fun _ hi => hi) (.inl rfl)
  | moved u v hmove hv hstalled h =>
    have hnoted := (State.onlyFlags_of_noteBudgetWaits hv).requestsSound (hmove.requestsSound hs)
    exact hnoted.of_pool (fun i hi => by rw [h]; exact hi) hstalled
  | restored h ih => exact ih hs

/-! ### The buffer is never overfilled -/

/-- A sound request that reads carries no data lines (R5, R6). -/
theorem HoldRecord.Sound.no_lines {r : HoldRecord} (h : r.Sound) (hread : kindWrites r.kind = false) :
    r.data.length = 0 := by
  obtain ⟨-, -, -, -, -, hdata⟩ := h
  rw [hdata]
  revert hread
  cases r.kind <;> simp [kindWrites, expectedLines]

/-- The placement test leaves room in the buffer for the lines of a sound request (R27). -/
theorem State.room_of_placementTest {s : State} {r : HoldRecord} (hr : r.Sound)
    (htest : s.placementTest r.cls r.kind r.data.length = true)
    (hused : s.usedLines ≤ Config.bufferLines) : s.usedLines + r.data.length ≤ Config.bufferLines := by
  simp only [State.placementTest, Bool.and_eq_true, Bool.or_eq_true, Bool.not_eq_true',
    decide_eq_true_eq] at htest
  obtain ⟨-, hread | hfits⟩ := htest
  · rw [hr.no_lines hread]
    exact hused
  · rw [State.freeLines] at hfits
    omega

theorem State.HoldMove.usedLines_le {s u : State} (h : s.HoldMove u) (hs : s.holdSide.RequestsSound)
    (hused : s.holdSide.usedLines ≤ Config.bufferLines) : u.holdSide.usedLines ≤ Config.bufferLines := by
  cases h with
  | placed e r hfree htest hr hu =>
    rw [← State.usedLines_eq] at hused
    have hroom := State.room_of_placementTest (State.placed_sound hs hr) htest hused
    have hfilled : (s.placeIn e r).holdSide.usedLines
        = s.holdSide.usedLines + (s.placeIn e r).pool.entries[e].lines :=
      HoldSide.usedLines_filled hfree fun i hi =>
        congrArg HoldEntry.lines ((s.placeIn_entry e i r).trans (if_neg hi))
    have hlines : (s.placeIn e r).pool.entries[e].lines = r.data.length :=
      congrArg HoldEntry.lines ((s.placeIn_entry e e r).trans (if_pos rfl))
    rw [hu, hfilled, hlines, ← State.usedLines_eq]
    exact hroom
  | forwarded c e r hready hhead he hu =>
    refine (HoldSide.usedLines_le fun i => ?_).trans hused
    have hentry := s.charge_removeHead_entry c e i r.length
    rw [hu]
    simp only [State.holdSide]
    rw [hentry]
    split
    · exact Nat.zero_le _
    · rw [HoldEntry.dropMember_lines]
  | boundary c forced hforced hu => rwa [hu]
  | discarded n hu =>
    refine (HoldSide.usedLines_le fun i => ?_).trans hused
    rw [hu]
    simp only [State.holdSide, State.setQueue_pool_entries]
    rw [State.foldl_cancelEntry_entry]
    split
    · exact Nat.zero_le _
    · rename_i r hr
      rw [hr]
    · rename_i r hr
      rw [hr]
      split <;> rfl

theorem State.OnlyFlags.usedLines {s t : State} (h : s.OnlyFlags t) :
    t.holdSide.usedLines = s.holdSide.usedLines := by
  refine Finset.sum_congr rfl fun e _ => ?_
  have hlines := congrArg HoldEntry.lines (h.entries e)
  rwa [HoldEntry.unflagged_lines, HoldEntry.unflagged_lines] at hlines

theorem State.HoldEvent.usedLines_le {s t : State} (h : s.HoldEvent t) (hs : s.holdSide.RequestsSound)
    (hused : s.holdSide.usedLines ≤ Config.bufferLines) : t.holdSide.usedLines ≤ Config.bufferLines := by
  induction h with
  | same h => rwa [h]
  | zeroed hlive h =>
    rw [h]
    exact hused
  | stalled r hr h =>
    rw [h]
    exact hused
  | answered e r he h =>
    refine (HoldSide.usedLines_le fun i => ?_).trans hused
    rw [h]
    simp only [State.holdSide, State.setEntry_pool_entries, entries_set]
    split
    · exact Nat.zero_le _
    · exact Nat.le_refl _
  | emptied h =>
    rw [h, HoldSide.usedLines_empty rfl]
    exact Nat.zero_le _
  | staged c x h => rwa [h]
  | committed n hcheck h => rwa [h]
  | moved u v hmove hv hstalled h =>
    rw [h]
    exact (State.onlyFlags_of_noteBudgetWaits hv).usedLines.trans_le (hmove.usedLines_le hs hused)
  | restored h ih => exact ih hs hused

/-! ## A step -/

/-- What every event keeps, and reset establishes, every step keeps. -/
theorem step_keeps_holdSide {P : HoldSide → Prop}
    (hevent : ∀ s t : State, s.HoldEvent t → P s.holdSide → P t.holdSide) (hreset : P State.reset.holdSide)
    {s t : State} (h : step s = .next t) (hs : P s.holdSide) : P t.holdSide := by
  unfold step at h
  split at h
  · cases h
    exact hs
  · rename_i c rest _
    cases hc : isReset c with
    | false => exact hevent _ _ (exec_holdEvent h hc) hs
    | true =>
      rcases exec_holdSide_of_reset h hc with ht | ht <;> rw [ht]
      · exact hs
      · exact hreset

/-- Held requests are sound and the write data buffer holds them (R18, R32). -/
def HoldSide.BufferSound (w : HoldSide) : Prop := w.RequestsSound ∧ w.usedLines ≤ Config.bufferLines

theorem State.bufferSound_iff {s : State} : s.BufferSound ↔ s.holdSide.BufferSound := by
  rw [State.BufferSound, State.requestsSound_iff, State.usedLines_eq]
  rfl

/-- Settles O5: the placement test leaves room for what is placed, and nothing else fills the buffer. -/
theorem bufferKept : Obligations.BufferKept := by
  intro s t hs h
  rw [State.bufferSound_iff] at hs ⊢
  exact step_keeps_holdSide (P := HoldSide.BufferSound)
    (fun _ _ hevent ⟨hrequests, hused⟩ =>
      ⟨hevent.requestsSound hrequests, hevent.usedLines_le hrequests hused⟩)
    (State.bufferSound_iff.mp reset_bufferSound) h hs

end Sys2Proof.Machine


namespace Sys2Proof.Machine

set_option Elab.async false

/-! ## Settings and reservations (R76, R80) -/

/-- Active and pending settings are valid, and what the classes count for in the reservation-sum check is at
most 192 (R76, R80). -/
def HoldSide.SettingsSound (w : HoldSide) : Prop :=
  (∀ c : ClassId, w.budget[c].active.Valid ∧ (w.budget[c].pending = true → w.budget[c].staged.Valid))
    ∧ ∑ c : ClassId, w.budget[c].countedReservation ≤ Config.reservationTotal

theorem State.settingsSound_iff {s : State} : s.SettingsSound ↔ s.holdSide.SettingsSound := by
  rw [State.SettingsSound, HoldSide.SettingsSound, Fin.sum_univ_def]
  rfl

/-- The reservation-sum check adds the staged reservation of its class to what the others count for (R80). -/
theorem State.reservationSum_eq (s : State) (n : ClassId) : s.reservationSum n
    = s.budget[n].staged.reservation.toNat
      + ∑ k ∈ Finset.univ.erase n, s.budget[k].countedReservation := by
  rw [State.reservationSum, ← Fin.sum_univ_def, ← Finset.add_sum_erase _ _ (Finset.mem_univ n),
    if_pos rfl]
  exact congrArg _ (Finset.sum_congr rfl fun k hk => if_neg (Finset.ne_of_mem_erase hk))

theorem sum_filter_ne_eq_sum_erase (n : ClassId) (f : ClassId → Nat) :
    (((List.finRange 16).filter (fun k : ClassId => decide (k ≠ n))).map f).sum
      = ∑ k ∈ Finset.univ.erase n, f k := by
  rw [← List.sum_toFinset f ((List.nodup_finRange 16).filter _)]
  congr 1
  ext k
  simp

/-! ### The six checks in order (R79, R80) -/

/-- Every check before `i` passes. -/
def State.ChecksPass (s : State) (n : ClassId) (i : Nat) : Prop := ∀ j : Nat, j < i → s.checkPasses n j

theorem State.checksPass_one (s : State) (n : ClassId) : s.ChecksPass n 1 := by
  intro j hj
  obtain rfl : j = 0 := by omega
  trivial

theorem State.ChecksPass.succ {s : State} {n : ClassId} {i : Nat} (h : s.ChecksPass n i)
    (hi : s.checkPasses n i) : s.ChecksPass n (i + 1) := by
  intro j hj
  rcases Nat.lt_succ_iff_lt_or_eq.mp hj with hlt | rfl
  · exact h j hlt
  · exact hi

theorem State.ChecksPass.forall {s : State} {n : ClassId} (h : s.ChecksPass n 7) (j : Nat) :
    s.checkPasses n j := by
  by_cases hj : j < 7
  · exact h j hj
  · obtain ⟨i, rfl⟩ : ∃ i, j = i + 7 := ⟨j - 7, by omega⟩
    trivial

/-- What an answer of the checks says: check `i` is the first that fails, or every check passes (R79). -/
def State.CheckCorrect (s : State) (n : ClassId) : Option Nat → Prop
  | some i => ¬ s.checkPasses n i ∧ s.ChecksPass n i
  | none => ∀ j : Nat, s.checkPasses n j

/-- At most one answer is correct. -/
theorem State.CheckCorrect.unique {s : State} {n : ClassId} {a b : Option Nat} (ha : s.CheckCorrect n a)
    (hb : s.CheckCorrect n b) : a = b := by
  match a, b with
  | none, none => rfl
  | none, some j => exact absurd (ha j) hb.1
  | some i, none => exact absurd (hb i) ha.1
  | some i, some j =>
    obtain ⟨hi, hi'⟩ := ha
    obtain ⟨hj, hj'⟩ := hb
    rcases Nat.lt_trichotomy i j with h | h | h
    · exact absurd (hj' i h) hi
    · rw [h]
    · exact absurd (hi' j h) hj

theorem State.checkPasses_two {s : State} {n : ClassId} :
    s.checkPasses n 2 ↔ s.budget[n].staged.period ≠ 0 := by
  rw [State.checkPasses, Nat.one_le_iff_ne_zero, ne_eq, ne_eq, ← BitVec.toNat_inj]
  rfl

/-- Check 6 is the reservation-sum check (R80). -/
theorem State.checkPasses_six {s : State} {n : ClassId} :
    s.checkPasses n 6 ↔ s.reservationSum n ≤ Config.reservationTotal := by
  rw [State.checkPasses, sum_filter_ne_eq_sum_erase, State.reservationSum_eq]
  rfl

/-- The five checks of one settings record go in the order of R79's table. -/
theorem State.firstFailing_correct (s : State) (n : ClassId) :
    match s.budget[n].staged.firstFailing with
    | some i => s.CheckCorrect n (some i)
    | none => s.ChecksPass n 6 := by
  have pass1 := s.checksPass_one n
  unfold Settings.firstFailing
  split_ifs with h1 h2 h3 h4 h5
  · exact ⟨fun ⟨_, _, _⟩ => by omega, pass1⟩
  all_goals have pass2 : s.ChecksPass n 2 := pass1.succ ⟨by omega, by omega, by omega⟩
  · exact ⟨fun h => State.checkPasses_two.mp h h2, pass2⟩
  all_goals have pass3 : s.ChecksPass n 3 := pass2.succ (State.checkPasses_two.mpr h2)
  · exact ⟨fun ⟨_, _⟩ => by omega, pass3⟩
  all_goals have pass4 : s.ChecksPass n 4 := pass3.succ ⟨by omega, by omega⟩
  · exact ⟨fun h => absurd h (Nat.not_le.mpr h4), pass4⟩
  all_goals have pass5 : s.ChecksPass n 5 := pass4.succ (Nat.not_lt.mp h4)
  · exact ⟨fun h => absurd h (Nat.not_le.mpr h5), pass5⟩
  · exact pass5.succ (Nat.not_lt.mp h5)

theorem State.failingCheck_correct (s : State) (n : ClassId) : s.CheckCorrect n (s.failingCheck n) := by
  have h := s.firstFailing_correct n
  have h6 : s.checkPasses n 6 ↔ s.reservationSum n ≤ Config.reservationTotal := State.checkPasses_six
  unfold State.failingCheck
  cases hf : s.budget[n].staged.firstFailing with
  | some i =>
    rw [hf] at h
    exact h
  | none =>
    replace h : s.ChecksPass n 6 := by rwa [hf] at h
    generalize s.reservationSum n = total at h6 ⊢
    by_cases ht : total ≤ Config.reservationTotal
    · simp only [ht, if_true]
      exact (h.succ (h6.mpr ht)).forall
    · simp only [ht, if_false]
      exact ⟨mt h6.mp ht, h⟩

/-- A staged copy that passes the checks is valid, and fits what the other classes count for (R79, R80). -/
theorem State.valid_of_failingCheck {s : State} {n : ClassId} (h : s.failingCheck n = none) :
    s.budget[n].staged.Valid ∧ s.budget[n].staged.reservation.toNat
      + ∑ k ∈ Finset.univ.erase n, s.budget[k].countedReservation ≤ Config.reservationTotal := by
  have hpass := s.failingCheck_correct n
  rw [h] at hpass
  obtain ⟨hmode, hguard, hpriority⟩ := hpass 1
  obtain ⟨hleast, hmost⟩ := hpass 3
  rw [← State.reservationSum_eq]
  exact ⟨⟨hmode, hguard, hpriority, hpass 2, hleast, hmost, hpass 4, hpass 5⟩,
    State.checkPasses_six.mp (hpass 6)⟩

/-! ### Settings stay sound at every event -/

/-- One class's budget unit is rewritten: the settings stay sound where the new one's are valid, and what it
counts for fits what the others count for. -/
theorem State.settingsSound_setBudget {s : State} {n : ClassId} {b : ClassBudget}
    (hs : s.holdSide.SettingsSound) (hactive : b.active.Valid)
    (hstaged : b.pending = true → b.staged.Valid)
    (hsum : b.countedReservation ≤ s.budget[n].countedReservation
      ∨ b.countedReservation + ∑ k ∈ Finset.univ.erase n, s.budget[k].countedReservation
        ≤ Config.reservationTotal) : (s.setBudget n b).holdSide.SettingsSound := by
  have hbudget (c : ClassId) : (s.setBudget n b).holdSide.budget[c] = if c = n then b else s.budget[c] := by
    simp only [State.holdSide, State.setBudget_budget, budget_set]
  have hothers : ∑ k ∈ Finset.univ.erase n, (s.setBudget n b).holdSide.budget[k].countedReservation
      = ∑ k ∈ Finset.univ.erase n, s.budget[k].countedReservation :=
    Finset.sum_congr rfl fun k hk => by rw [hbudget, if_neg (Finset.ne_of_mem_erase hk)]
  obtain ⟨hvalid, htotal⟩ := hs
  refine ⟨fun c => ?_, ?_⟩
  · rw [hbudget]
    split
    · exact ⟨hactive, hstaged⟩
    · exact hvalid c
  · rw [← Finset.add_sum_erase _ _ (Finset.mem_univ n)] at htotal ⊢
    rw [hothers, hbudget, if_pos rfl]
    simp only [State.holdSide] at htotal
    omega

/-- After a boundary a class counts for the reservation that becomes active (R80, R85). -/
theorem ClassBudget.countedReservation_boundary (b : ClassBudget) (forced : Bool) (now : Time) :
    (b.boundary forced now).countedReservation
      = (if b.pending || forced then b.staged else b.active).reservation.toNat := by
  simp [ClassBudget.countedReservation, ClassBudget.boundary]

theorem State.HoldMove.settingsSound {s u : State} (h : s.HoldMove u) (hs : s.holdSide.SettingsSound) :
    u.holdSide.SettingsSound := by
  cases h with
  | placed e r hfree htest hr hu => rwa [hu]
  | forwarded c e r hready hhead he hu =>
    have hcharged : (s.charge c r.length).holdSide.SettingsSound := by
      unfold State.charge
      split
      · obtain ⟨hactive, hstaged⟩ := hs.1 c
        exact State.settingsSound_setBudget hs hactive hstaged (.inl (Nat.le_refl _))
      · exact hs
    rwa [hu]
  | boundary c forced hforced hu =>
    obtain ⟨hactive, hstaged⟩ := hs.1 c
    have hcounted := s.budget[c].countedReservation_boundary forced s.time
    rw [hu]
    simp only [State.holdSide] at hactive hstaged
    cases forced with
    | true =>
      obtain ⟨hvalid, hfits⟩ := State.valid_of_failingCheck (hforced rfl)
      refine State.settingsSound_setBudget hs ?_ nofun (.inr ?_)
      · simpa [ClassBudget.boundary] using hvalid
      · rw [hcounted]
        simpa using hfits
    | false =>
      refine State.settingsSound_setBudget hs ?_ nofun (.inl ?_)
      · simp only [ClassBudget.boundary, Bool.or_false]
        split
        · exact hstaged ‹_›
        · exact hactive
      · rw [hcounted, ClassBudget.countedReservation]
        cases s.budget[c].pending <;> simp
  | discarded n hu =>
    have hframe := State.foldl_cancelEntry_frame s.pool.queues[n] s
    rw [hu, hframe]
    exact hs

theorem State.OnlyFlags.settingsSound {s t : State} (h : s.OnlyFlags t)
    (hs : s.holdSide.SettingsSound) : t.holdSide.SettingsSound := by
  have hbudget : t.holdSide.budget = s.holdSide.budget := h.budget
  rwa [HoldSide.SettingsSound, hbudget]

theorem State.restoreDefaults_budget (s : State) (c : ClassId) :
    s.restoreDefaults.holdSide.budget[c] = ClassBudget.reset s.time := by
  simp [State.holdSide, State.restoreDefaults]

theorem State.settingsSound_restoreDefaults (s : State) : s.restoreDefaults.holdSide.SettingsSound := by
  refine ⟨fun c => ?_, ?_⟩
  · rw [s.restoreDefaults_budget]
    exact ⟨Settings.reset_valid, nofun⟩
  · rw [Finset.sum_eq_zero fun c _ => by rw [s.restoreDefaults_budget]; rfl]
    exact Nat.zero_le _

theorem State.HoldEvent.settingsSound {s t : State} (h : s.HoldEvent t) (hs : s.holdSide.SettingsSound) :
    t.holdSide.SettingsSound := by
  induction h with
  | same h => rwa [h]
  | zeroed hlive h =>
    rw [h]
    exact hs
  | stalled r hr h =>
    rw [h]
    exact hs
  | answered e r he h =>
    rw [h]
    exact hs
  | emptied h =>
    rw [h]
    exact hs
  | staged c x h =>
    rw [h]
    refine State.settingsSound_setBudget hs (hs.1 c).1 nofun (.inl ?_)
    simp [ClassBudget.countedReservation]
  | @committed s t n hcheck h =>
    obtain ⟨hvalid, hfits⟩ := State.valid_of_failingCheck hcheck
    rw [h]
    refine State.settingsSound_setBudget hs (hs.1 n).1 (fun _ => hvalid) ?_
    simp only [ClassBudget.countedReservation, if_true] at hfits ⊢
    rcases Nat.le_total s.budget[n].active.reservation.toNat s.budget[n].staged.reservation.toNat
      with hle | hle
    · right
      rwa [Nat.max_eq_right hle]
    · left
      rw [Nat.max_eq_left hle]
      exact Nat.le_max_left _ _
  | moved u v hmove hv hstalled h =>
    rw [h]
    exact (State.onlyFlags_of_noteBudgetWaits hv).settingsSound (hmove.settingsSound hs)
  | restored h ih => exact ih (State.settingsSound_restoreDefaults _)

end Sys2Proof.Machine


namespace Sys2Proof.Machine

set_option Elab.async false

/-! ## Heads held for budget (R95, R97) -/

/-- A QUEUED head is in BUDGET_WAIT exactly where it waits on nothing, in METER mode, with no credit left
(R95). -/
theorem State.headCondition_eq_budgetWait {s : State} {c : ClassId} {e : EntryId} {r : HoldRecord}
    (hhead : s.head? c = some e) (he : s.pool.entries[e] = .queued r) :
    s.headCondition c = .budgetWait ↔ r.waitList = [] ∧ s.budget[c].active.isGate = false
      ∧ s.budget[c].active.isMeter = true ∧ s.budget[c].account ≤ 0 := by
  have hwait : s.waitListOf e = r.waitList := State.waitListOf_of_queued he
  unfold State.headCondition
  rw [hhead]
  dsimp only
  rw [hwait]
  split_ifs <;> simp_all

/-- A QUEUED head in BUDGET_WAIT has its waited-for-budget flag set (R97). -/
def HoldSide.HeadsNoted (w : HoldSide) : Prop :=
  ∀ (c : ClassId) (e : EntryId) (r : HoldRecord), w.pool.queues[c].head? = some e →
    w.pool.entries[e] = .queued r → r.waitList = [] → w.budget[c].active.isGate = false →
    w.budget[c].active.isMeter = true → w.budget[c].account ≤ 0 → r.waitedForBudget = true

theorem State.headsNoted_iff {s : State} : s.HeadsNoted ↔ s.holdSide.HeadsNoted := by
  constructor
  · intro h c e r hhead he hwait hgate hmeter haccount
    exact h c e r ((State.headCondition_eq_budgetWait hhead he).mpr ⟨hwait, hgate, hmeter, haccount⟩)
      hhead he
  · intro h c e r hcondition hhead he
    obtain ⟨hwait, hgate, hmeter, haccount⟩ := (State.headCondition_eq_budgetWait hhead he).mp hcondition
    exact h c e r hhead he hwait hgate hmeter haccount

/-- Heads are noted exactly where nothing is left to note. -/
theorem State.headsNoted_of_toNote {s : State} (h : ∀ c : ClassId, s.toNote c = false) : s.HeadsNoted := by
  intro c e r hcondition hhead he
  have hc := h c
  simp only [State.toNote, hcondition, hhead, he, State.noted, HoldEntry.isQueued] at hc
  simpa using hc

/-- Deriving one class's condition anew leaves its head noted, and gives no other class one to note. -/
theorem State.toNote_noteBudgetWait {s : State} {c i : ClassId}
    (h : (s.noteBudgetWait c).toNote i = true) : s.toNote i = true ∧ i ≠ c := by
  obtain ⟨hqueues, hcondition, hqueued, hnoted, -⟩ := s.noteBudgetWait_notes c
  have hhead : (s.noteBudgetWait c).head? i = s.head? i := by rw [State.head?, hqueues]; rfl
  have htoNote : s.toNote i = true := by
    unfold State.toNote at h ⊢
    rw [hcondition, hhead] at h
    cases hi : s.head? i with
    | none => simp [hi] at h
    | some e =>
      simp only [hi, hqueued, hnoted] at h
      simp_all
  refine ⟨htoNote, ?_⟩
  rintro rfl
  unfold State.toNote at h
  rw [hhead] at h
  cases hi : s.head? i with
  | none => simp [hi] at h
  | some e =>
    simp only [hi, hnoted, htoNote] at h
    simp at h

theorem State.toNote_foldl_noteBudgetWait (cs : List ClassId) (s : State) {i : ClassId}
    (h : (cs.foldl State.noteBudgetWait s).toNote i = true) : s.toNote i = true ∧ i ∉ cs := by
  induction cs generalizing s with
  | nil => exact ⟨h, List.not_mem_nil⟩
  | cons c cs ih =>
    obtain ⟨hfirst, hrest⟩ := ih (s.noteBudgetWait c) h
    obtain ⟨hs, hic⟩ := State.toNote_noteBudgetWait hfirst
    exact ⟨hs, by simp [hic, hrest]⟩

/-- Once the head conditions are derived anew every head is noted (R97). -/
theorem State.headsNoted_of_noteBudgetWaits {s t : State} (h : s.noteBudgetWaits = t) : t.HeadsNoted := by
  subst h
  refine State.headsNoted_of_toNote fun i => Bool.eq_false_iff.mpr fun hi => ?_
  exact (State.toNote_foldl_noteBudgetWait (List.finRange 16) s hi).2 (List.mem_finRange i)

/-- Where no entry becomes QUEUED and no head or account changes, the heads stay noted. -/
theorem HoldSide.HeadsNoted.of_pool {w w' : HoldSide} (h : w.HeadsNoted)
    (hqueues : w'.pool.queues = w.pool.queues)
    (hentries : ∀ (e : EntryId) (r : HoldRecord), w'.pool.entries[e] = .queued r →
      w.pool.entries[e] = .queued r)
    (hbudget : ∀ c : ClassId, w'.budget[c].active = w.budget[c].active
      ∧ w'.budget[c].account = w.budget[c].account) : w'.HeadsNoted := by
  intro c e r hhead he hwait hgate hmeter haccount
  obtain ⟨hactive, hsame⟩ := hbudget c
  rw [hqueues] at hhead
  rw [hactive] at hgate hmeter
  rw [hsame] at haccount
  exact h c e r hhead (hentries e r he) hwait hgate hmeter haccount

/-- A class's staged copy and pending flag are no part of what its head is judged by. -/
theorem State.setBudget_active_account {s : State} {n : ClassId} {b : ClassBudget}
    (hactive : b.active = s.budget[n].active) (haccount : b.account = s.budget[n].account)
    (c : ClassId) : (s.setBudget n b).holdSide.budget[c].active = s.holdSide.budget[c].active
      ∧ (s.setBudget n b).holdSide.budget[c].account = s.holdSide.budget[c].account := by
  simp only [State.holdSide, State.setBudget_budget, budget_set]
  split
  · rename_i hc
    subst hc
    exact ⟨hactive, haccount⟩
  · exact ⟨rfl, rfl⟩

theorem State.headsNoted_restoreDefaults (s : State) : s.restoreDefaults.holdSide.HeadsNoted := by
  intro c e r _ _ _ _ hmeter
  rw [s.restoreDefaults_budget] at hmeter
  cases hmeter

theorem State.HoldEvent.headsNoted {s t : State} (h : s.HoldEvent t) (hs : s.holdSide.HeadsNoted) :
    t.holdSide.HeadsNoted := by
  induction h with
  | same h => rwa [h]
  | zeroed hlive h =>
    rw [h]
    exact hs
  | stalled r hr h =>
    rw [h]
    exact hs
  | @answered s t e r he h =>
    rw [h]
    refine hs.of_pool rfl (fun i q hq => ?_) fun _ => ⟨rfl, rfl⟩
    simp only [State.holdSide, State.setEntry_pool_entries, entries_set] at hq ⊢
    split at hq
    · cases hq
    · exact hq
  | emptied h =>
    rw [h]
    intro c e r hhead
    simp [HoldPool.empty] at hhead
  | @staged s t c x h =>
    rw [h]
    exact hs.of_pool rfl (fun _ _ hq => hq)
      (State.setBudget_active_account (b := { s.budget[c] with staged := x, pending := false }) rfl rfl)
  | @committed s t n hcheck h =>
    rw [h]
    exact hs.of_pool rfl (fun _ _ hq => hq)
      (State.setBudget_active_account (b := { s.budget[n] with pending := true }) rfl rfl)
  | moved u v hmove hv hstalled h =>
    rw [h]
    exact State.headsNoted_iff.mp (State.headsNoted_of_noteBudgetWaits hv)
  | restored h ih => exact ih (State.headsNoted_restoreDefaults _)

/-- Settles O7: the six checks stand before every pending flag and forced boundary, and every event that
moves a head or an account derives the head conditions anew. -/
theorem budgetUnitKept : Obligations.BudgetUnitKept := by
  intro s t h
  rw [State.settingsSound_iff, State.settingsSound_iff, State.headsNoted_iff, State.headsNoted_iff]
  exact ⟨step_keeps_holdSide (P := HoldSide.SettingsSound) (fun _ _ hevent => hevent.settingsSound)
      (State.settingsSound_iff.mp reset_settingsSound) h,
    step_keeps_holdSide (P := HoldSide.HeadsNoted) (fun _ _ hevent => hevent.headsNoted)
      (State.headsNoted_iff.mp reset_headsNoted) h⟩

/-! ## Credit accounts (R85, R87, R88) -/

/-- Every account lies between −15 and its cap (R88). -/
def HoldSide.AccountsWithin (w : HoldSide) : Prop :=
  ∀ c : ClassId, -15 ≤ w.budget[c].account ∧ w.budget[c].account ≤ w.budget[c].active.cap

/-- A replenished account is within its bounds (R85). -/
theorem replenish_within (r : Settings) {account : Int} (h : -15 ≤ account) :
    -15 ≤ replenish r account ∧ replenish r account ≤ r.cap := by
  have hcap : 0 ≤ r.cap := by
    unfold Settings.cap
    omega
  unfold replenish
  omega

theorem HoldSide.AccountsWithin.setBudget {s : State} {n : ClassId} {b : ClassBudget}
    (hs : s.holdSide.AccountsWithin) (hb : -15 ≤ b.account ∧ b.account ≤ b.active.cap) :
    (s.setBudget n b).holdSide.AccountsWithin := by
  intro c
  have hc := hs c
  simp only [State.holdSide, State.setBudget_budget, budget_set] at hc ⊢
  split
  · exact hb
  · exact hc

/-- A METER class with a READY head has credit (R95). -/
theorem State.account_pos_of_ready {s : State} {c : ClassId} {e : EntryId}
    (hready : s.headCondition c = .ready) (hhead : s.head? c = some e)
    (hmeter : s.budget[c].active.isMeter = true) : 0 < s.budget[c].account := by
  by_contra haccount
  have hle : s.budget[c].account ≤ 0 := Int.not_lt.mp haccount
  unfold State.headCondition at hready
  rw [hhead] at hready
  simp only [hmeter, hle, decide_true, Bool.and_self, if_true] at hready
  split_ifs at hready

theorem State.HoldMove.accountsWithin {s u : State} (h : s.HoldMove u) (hs : s.holdSide.RequestsSound)
    (hw : s.holdSide.AccountsWithin) : u.holdSide.AccountsWithin := by
  cases h with
  | placed e r hfree htest hr hu => rwa [hu]
  | forwarded c e r hready hhead he hu =>
    have hcharged : (s.charge c r.length).holdSide.AccountsWithin := by
      unfold State.charge
      split
      · rename_i hmeter
        have hpos := State.account_pos_of_ready hready hhead hmeter
        have hsound : r.Sound := HoldEntry.sound_queued.mp (he ▸ hs.1 e)
        obtain ⟨-, hlength, -⟩ := hsound
        have hc := hw c
        simp only [State.holdSide] at hc
        exact hw.setBudget ⟨by dsimp only; omega, by dsimp only; omega⟩
      · exact hw
    rwa [hu]
  | boundary c forced hforced hu =>
    rw [hu]
    exact hw.setBudget (replenish_within _ (hw c).1)
  | discarded n hu =>
    have hframe := State.foldl_cancelEntry_frame s.pool.queues[n] s
    rw [hu, hframe]
    exact hw

theorem State.OnlyFlags.accountsWithin {s t : State} (h : s.OnlyFlags t)
    (hs : s.holdSide.AccountsWithin) : t.holdSide.AccountsWithin := by
  have hbudget : t.holdSide.budget = s.holdSide.budget := h.budget
  rwa [HoldSide.AccountsWithin, hbudget]

theorem State.accountsWithin_restoreDefaults (s : State) : s.restoreDefaults.holdSide.AccountsWithin := by
  intro c
  rw [s.restoreDefaults_budget]
  simp [ClassBudget.reset, Settings.reset, Settings.cap]

theorem State.HoldEvent.accountsWithin {s t : State} (h : s.HoldEvent t) (hs : s.holdSide.RequestsSound)
    (hw : s.holdSide.AccountsWithin) : t.holdSide.AccountsWithin := by
  induction h with
  | same h => rwa [h]
  | zeroed hlive h =>
    rw [h]
    exact hw
  | stalled r hr h =>
    rw [h]
    exact hw
  | answered e r he h =>
    rw [h]
    exact hw
  | emptied h =>
    rw [h]
    exact hw
  | @staged s t c x h =>
    rw [h]
    exact hw.setBudget (hw c)
  | @committed s t n hcheck h =>
    rw [h]
    exact hw.setBudget (hw n)
  | moved u v hmove hv hstalled h =>
    rw [h]
    exact (State.onlyFlags_of_noteBudgetWaits hv).accountsWithin (hmove.accountsWithin hs hw)
  | restored h ih => exact ih hs (State.accountsWithin_restoreDefaults _)

/-- Held requests are sound and every account is within its bounds. -/
def HoldSide.AccountsSound (w : HoldSide) : Prop := w.RequestsSound ∧ w.AccountsWithin

theorem State.accountsSound_iff {s : State} : s.AccountsSound ↔ s.holdSide.AccountsSound := by
  rw [State.AccountsSound, State.requestsSound_iff]
  rfl

/-- Settles O8: a METER head is forwarded with credit left, and a sound request costs at most 16. -/
theorem accountsKept : Obligations.AccountsKept := by
  intro s t hs h
  rw [State.accountsSound_iff] at hs ⊢
  exact step_keeps_holdSide (P := HoldSide.AccountsSound)
    (fun _ _ hevent ⟨hrequests, hwithin⟩ =>
      ⟨hevent.requestsSound hrequests, hevent.accountsWithin hrequests hwithin⟩)
    (State.accountsSound_iff.mp reset_accountsSound) h hs

end Sys2Proof.Machine


namespace Sys2Proof.Machine

set_option Elab.async false

/-! ## Histogram bins (R159) -/

/-- In a list that ascends by `f`, the elements that `t` has reached come first. -/
theorem lt_countP_iff_reached {α : Type} {f : α → Nat} (t : Nat) {l : List α}
    (h : l.Pairwise (fun a b => f a ≤ f b)) {j : Nat} (hj : j < l.length) :
    j < l.countP (fun a => decide (f a ≤ t)) ↔ f l[j] ≤ t := by
  induction l generalizing j with
  | nil => exact absurd hj (Nat.not_lt_zero j)
  | cons a l ih =>
    obtain ⟨hfirst, hrest⟩ := List.pairwise_cons.mp h
    by_cases ha : f a ≤ t
    · rw [List.countP_cons_of_pos (by simpa using ha)]
      cases j with
      | zero => simpa using ha
      | succ j =>
        rw [Nat.succ_lt_succ_iff, ih hrest (Nat.lt_of_succ_lt_succ hj)]
        rfl
    · have hnone : l.countP (fun a => decide (f a ≤ t)) = 0 := by
        rw [List.countP_eq_zero]
        intro b hb
        have := hfirst b hb
        simp only [decide_eq_true_eq]
        omega
      rw [List.countP_cons_of_neg (by simpa using ha), hnone]
      cases j with
      | zero => simp only [Nat.lt_irrefl, List.getElem_cons_zero, ha]
      | succ j =>
        have := hfirst _ (List.getElem_mem (Nat.lt_of_succ_lt_succ hj))
        simp only [Nat.not_lt_zero, List.getElem_cons_succ, false_iff]
        omega

/-- Boundaries that ascend from each to the next ascend throughout (R160). -/
theorem State.BoundariesSound.pairwise {s : State} (h : s.BoundariesSound) :
    s.stats.boundaries.toList.Pairwise (fun a b => a.toNat ≤ b.toNat) := by
  have hmono : StrictMono (fun i : Fin 7 => s.stats.boundaries[i].toNat) :=
    Fin.strictMono_iff_lt_succ.mpr h.2
  rw [toList_eq_map_finRange, List.pairwise_map]
  exact (List.pairwise_lt_finRange 7).imp fun hij => (hmono hij).le

theorem histogramBin_val (boundaries : Vector (BitVec 16) 7) (t : Nat) :
    (histogramBin boundaries t).val = boundaries.toList.countP (fun b => decide (b.toNat ≤ t)) := by
  have hle := List.countP_le_length (p := fun b : BitVec 16 => decide (b.toNat ≤ t))
    (l := boundaries.toList)
  rw [Vector.length_toList] at hle
  exact Nat.mod_eq_of_lt (Nat.lt_succ_of_le hle)

/-- The bin's number is how many boundaries the total time has reached (R159). -/
theorem State.BoundariesSound.lt_histogramBin {s : State} (h : s.BoundariesSound) (t : Nat) (j : Fin 7) :
    j.val < (histogramBin s.stats.boundaries t).val ↔ s.stats.boundaries[j].toNat ≤ t := by
  rw [histogramBin_val, lt_countP_iff_reached t h.pairwise (by simp)]
  simp

/-! ## Counting events (R157) -/

theorem saturates_eq_true {c : Counter} {n : Nat} : saturates c n = true ↔ 2 ^ 32 ≤ c.toNat + n := by
  rw [saturates, decide_eq_true_eq]

theorem State.live_countClass_other (s : State) {c i : ClassId} (k : ClassCounter) (n : Nat)
    (h : i ≠ c) : (s.countClass c k n).stats.live[i] = s.stats.live[i] := by
  rw [State.countClass_stats_live, live_set, if_neg h]

/-- Everything a counting event of a class does (R155, R157). -/
theorem State.countClass_counts (s : State) (c : ClassId) (k : ClassCounter) (n : Nat) :
    ((s.countClass c k n).stats.live[c].get k).toNat
        = min (2 ^ 32 - 1) ((s.stats.live[c].get k).toNat + n)
      ∧ (∀ k' : ClassCounter, k' ≠ k →
          (s.countClass c k n).stats.live[c].get k' = s.stats.live[c].get k')
      ∧ (∀ c' : ClassId, c' ≠ c → (s.countClass c k n).stats.live[c'] = s.stats.live[c'])
      ∧ ((s.countClass c k n).stats.live[c].saturated = true ↔
          s.stats.live[c].saturated = true ∨ 2 ^ 32 ≤ (s.stats.live[c].get k).toNat + n)
      ∧ ((s.countClass c k n).alerts.saturation = true ↔
          s.alerts.saturation = true ∨ 2 ^ 32 ≤ (s.stats.live[c].get k).toNat + n) := by
  refine ⟨?_, fun k' hk => ?_, fun c' hc => s.live_countClass_other k n hc, ?_, ?_⟩
  · rw [State.get_countClass, if_pos ⟨rfl, rfl⟩, satAdd_toNat]
  · rw [State.get_countClass, if_neg fun h => hk h.2]
  · rw [State.saturated_countClass, Bool.or_eq_true, decide_eq_true rfl, Bool.true_and,
      saturates_eq_true]
  · rw [State.countClass_alerts_saturation, Bool.or_eq_true, saturates_eq_true]

/-- Everything a counting event of no class does (R156, R157). -/
theorem State.countGlobal_counts (s : State) (k : GlobalCounter) (n : Nat) :
    ((s.countGlobal k n).stats.globals.get k).toNat
        = min (2 ^ 32 - 1) ((s.stats.globals.get k).toNat + n)
      ∧ (∀ k' : GlobalCounter, k' ≠ k →
          (s.countGlobal k n).stats.globals.get k' = s.stats.globals.get k')
      ∧ ((s.countGlobal k n).stats.globals.saturated = true ↔
          s.stats.globals.saturated = true ∨ 2 ^ 32 ≤ (s.stats.globals.get k).toNat + n)
      ∧ ((s.countGlobal k n).alerts.saturation = true ↔
          s.alerts.saturation = true ∨ 2 ^ 32 ≤ (s.stats.globals.get k).toNat + n) := by
  refine ⟨?_, fun k' hk => ?_, ?_, ?_⟩
  · rw [State.countGlobal_stats_globals, GlobalStats.get_bump_same, satAdd_toNat]
  · rw [State.countGlobal_stats_globals, GlobalStats.get_bump_other _ n hk]
  · rw [State.countGlobal_stats_globals, ← saturates_eq_true, ← Bool.or_eq_true]
    rfl
  · rw [State.countGlobal_alerts_saturation, Bool.or_eq_true, saturates_eq_true]

/-! ## Which heads an event notes (R97) -/

/-- The entry is QUEUED with its waited-for-budget flag set. -/
def HoldEntry.flagged : HoldEntry → Bool
  | .queued r => r.waitedForBudget
  | .free | .cancelling _ => false

theorem State.noted_eq (s : State) (e : EntryId) : s.noted e = s.pool.entries[e].flagged := by
  unfold State.noted
  cases s.pool.entries[e] <;> rfl

theorem HoldEntry.isQueued_of_flagged {x : HoldEntry} (h : x.flagged = true) : x.isQueued = true := by
  cases x with
  | queued r => rfl
  | free => cases h
  | cancelling r => cases h

/-- The flag of `x` is carried to `y`: set in `y` only where it was in `x`, and lost only with the
request. -/
def HoldEntry.FlagCarried (x y : HoldEntry) : Prop :=
  (y.flagged = true → x.flagged = true)
    ∧ (x.flagged = true → y.isQueued = true → y.flagged = true)

theorem HoldEntry.FlagCarried.refl (x : HoldEntry) : x.FlagCarried x := ⟨id, fun h _ => h⟩

/-- An entry that is not QUEUED afterwards holds no flag. -/
theorem HoldEntry.FlagCarried.of_not_queued {x y : HoldEntry} (h : y.isQueued = false) :
    x.FlagCarried y := by
  cases y with
  | queued r => cases h
  | free => exact ⟨nofun, nofun⟩
  | cancelling r => exact ⟨nofun, nofun⟩

theorem HoldEntry.FlagCarried.dropMember (x : HoldEntry) (i : EntryId) :
    x.FlagCarried (x.dropMember i) := by
  cases x <;> exact ⟨id, fun h _ => h⟩

/-- From `s` to `t` every entry's flag is carried. -/
def State.NotesCarried (s t : State) : Prop :=
  ∀ e : EntryId, s.pool.entries[e].FlagCarried t.pool.entries[e]

theorem State.NotesCarried.of_pool {s t : State} (h : t.pool = s.pool) : s.NotesCarried t := by
  intro e
  rw [h]
  exact .refl _

/-- A move sets no flag, and clears one only where its request leaves the queue. -/
theorem State.HoldMove.notesCarried {s u : State} (h : s.HoldMove u) : s.NotesCarried u := by
  have hpool {x : State} (hu : u.holdSide = x.holdSide) (e : EntryId) :
      u.pool.entries[e] = x.pool.entries[e] := by
    rw [show u.pool = x.pool from congrArg HoldSide.pool hu]
  cases h with
  | placed e r hfree htest hr hu =>
    intro i
    rw [hpool hu, State.placeIn_entry]
    split
    · rename_i hi
      rw [hi, hfree]
      exact ⟨nofun, nofun⟩
    · exact .refl _
  | forwarded c e r hready hhead he hu =>
    intro i
    rw [hpool hu, State.charge_removeHead_entry]
    split
    · exact .of_not_queued rfl
    · exact .dropMember _ e
  | boundary c forced hforced hu => exact .of_pool (congrArg HoldSide.pool hu)
  | discarded n hu =>
    intro i
    rw [hpool hu, State.setQueue_pool_entries, State.foldl_cancelEntry_entry]
    split
    · exact .of_not_queued rfl
    · exact .of_not_queued rfl
    · rename_i r hr
      rw [hr]
      split
      · exact .of_not_queued rfl
      · exact ⟨id, fun h _ => h⟩

theorem State.HoldMove.budgetWaits {s u : State} (h : s.HoldMove u) :
    u.holdSide.budgetWaits = s.holdSide.budgetWaits := by
  cases h with
  | placed e r hfree htest hr hu =>
    rw [hu, State.placeIn, State.holdSide_countClass _ _ _ (by simp)]
    rfl
  | forwarded c e r hready hhead he hu =>
    rw [hu]
    simp only [State.holdSide, State.removeHead_stats, State.charge_stats]
  | boundary c forced hforced hu => rw [hu]; rfl
  | discarded n hu =>
    have hframe := State.foldl_cancelEntry_frame s.pool.queues[n] s
    rw [hu, hframe]
    rfl

/-- A QUEUED head's BUDGET_WAIT depends on the pool and the budget unit only (R95). -/
theorem State.budgetWait_congr {s t : State} (hpool : t.pool = s.pool) (hbudget : t.budget = s.budget)
    {c : ClassId} {e : EntryId} (hhead : s.head? c = some e)
    (hqueued : s.pool.entries[e].isQueued = true) (h : s.headCondition c = .budgetWait) :
    t.headCondition c = .budgetWait := by
  cases he : s.pool.entries[e] with
  | queued r =>
    have hhead' : t.head? c = some e := by rw [State.head?, hpool]; exact hhead
    have he' : t.pool.entries[e] = .queued r := by rw [hpool]; exact he
    rw [State.headCondition_eq_budgetWait hhead' he', hbudget]
    exact (State.headCondition_eq_budgetWait hhead he).mp h
  | free => simp [-Fin.getElem_fin, he, HoldEntry.isQueued] at hqueued
  | cancelling r => simp [-Fin.getElem_fin, he, HoldEntry.isQueued] at hqueued

/-- What the count of heads held for budget says of an event from `s` to `t` (R97). -/
structure State.NotesFollow (s t : State) : Prop where
  head : ∀ e : EntryId, t.noted e = true → s.noted e = false →
    ∃ i : ClassId, t.headCondition i = .budgetWait ∧ t.head? i = some e
  stays : ∀ e : EntryId, s.noted e = true → t.pool.entries[e].isQueued = true → t.noted e = true
  counted : ∀ i : ClassId,
    (t.stats.live[i] = ClassStats.zero ∧ s.headNewlyNoted t i = false)
      ∨ t.stats.live[i].budgetWaits
        = satAdd s.stats.live[i].budgetWaits (if s.headNewlyNoted t i then 1 else 0)

theorem State.headNewlyNoted_eq_true {s t : State} {i : ClassId} : s.headNewlyNoted t i = true
    ↔ ∃ e : EntryId, t.head? i = some e ∧ t.noted e = true ∧ s.noted e = false := by
  unfold State.headNewlyNoted
  cases t.head? i <;> simp

/-- Where every flag is carried nothing is newly noted. -/
theorem State.NotesFollow.of_carried {s t : State} (h : s.NotesCarried t)
    (hcounts : ∀ i : ClassId, t.stats.live[i] = ClassStats.zero
      ∨ t.stats.live[i].budgetWaits = s.stats.live[i].budgetWaits) : s.NotesFollow t := by
  have hold (e : EntryId) (ht : t.noted e = true) : s.noted e = true := by
    rw [State.noted_eq] at ht ⊢
    exact (h e).1 ht
  have hnew (i : ClassId) : s.headNewlyNoted t i = false := by
    refine Bool.eq_false_iff.mpr fun hi => ?_
    obtain ⟨e, -, ht, hs⟩ := State.headNewlyNoted_eq_true.mp hi
    rw [hold e ht] at hs
    cases hs
  refine ⟨fun e ht hs => ?_, fun e hs hqueued => ?_, fun i => ?_⟩
  · rw [hold e ht] at hs
    cases hs
  · rw [State.noted_eq] at hs ⊢
    exact (h e).2 hs hqueued
  · rw [hnew i]
    refine (hcounts i).imp (fun hz => ⟨hz, rfl⟩) fun hk => ?_
    rw [hk]
    exact (satAdd_zero _).symm

theorem State.toNote_eq_true {s : State} {i : ClassId} : s.toNote i = true
    ↔ ∃ e : EntryId, s.headCondition i = .budgetWait ∧ s.head? i = some e
      ∧ s.pool.entries[e].isQueued = true ∧ s.noted e = false := by
  unfold State.toNote
  cases s.head? i <;> simp

/-- After a move each head to be noted is noted, and counted once (R97). -/
theorem State.NotesFollow.of_move {s u v t : State} (hmove : s.HoldMove u) (hv : u.noteBudgetWaits = v)
    (hd : t.HeadsDistinct) (hpool : t.pool = v.pool) (hbudget : t.budget = v.budget)
    (hcounts : t.holdSide.budgetWaits = v.holdSide.budgetWaits) : s.NotesFollow t := by
  have hcarried := hmove.notesCarried
  have hflags := State.onlyFlags_of_noteBudgetWaits hv
  have hheadv (i : ClassId) : t.head? i = v.head? i := by rw [State.head?, hpool]; rfl
  have hhead (i : ClassId) : t.head? i = u.head? i := by
    rw [hheadv, State.head?, hflags.queues]
    rfl
  have hdu : u.HeadsDistinct := fun i j e hi hj => hd i j e ((hhead i).trans hi) ((hhead j).trans hj)
  obtain ⟨-, hcondition, hnoted, hrise⟩ := u.noteBudgetWaits_notes hdu
  rw [hv] at hcondition hnoted hrise
  have htv (e : EntryId) : t.noted e = v.noted e := by rw [State.noted_eq, State.noted_eq, hpool]
  have hqueued (e : EntryId) : t.pool.entries[e].isQueued = u.pool.entries[e].isQueued := by
    rw [hpool, ← HoldEntry.unflagged_isQueued, hflags.entries, HoldEntry.unflagged_isQueued]
  have hlost (e : EntryId) (hs : s.noted e = true) (hq : u.pool.entries[e].isQueued = true) :
      u.noted e = true := by
    rw [State.noted_eq] at hs ⊢
    exact (hcarried e).2 hs hq
  have hnewly (e : EntryId) (ht : t.noted e = true) (hs : s.noted e = false) :
      ∃ i : ClassId, u.toNote i = true ∧ u.head? i = some e := by
    rw [htv, hnoted] at ht
    refine ht.resolve_left fun hu => ?_
    rw [State.noted_eq] at hu hs
    rw [(hcarried e).1 hu] at hs
    cases hs
  have htoNote (i : ClassId) : u.toNote i = true ↔ s.headNewlyNoted t i = true := by
    rw [State.headNewlyNoted_eq_true]
    constructor
    · intro hi
      obtain ⟨e, -, he, hq, hunnoted⟩ := State.toNote_eq_true.mp hi
      refine ⟨e, (hhead i).trans he, ?_, Bool.eq_false_iff.mpr fun hs => ?_⟩
      · rw [htv]
        exact (hnoted e).mpr (.inr ⟨i, hi, he⟩)
      · rw [hlost e hs hq] at hunnoted
        cases hunnoted
    · rintro ⟨e, he, ht, hs⟩
      obtain ⟨j, hj, hje⟩ := hnewly e ht hs
      rw [hdu i j e ((hhead i).symm.trans he) hje]
      exact hj
  refine ⟨fun e ht hs => ?_, fun e hs hq => ?_, fun i => .inr ?_⟩
  · obtain ⟨i, hi, he⟩ := hnewly e ht hs
    obtain ⟨-, hwaits, -⟩ := State.toNote_eq_true.mp hi
    have hev : v.head? i = some e := (hheadv i).symm.trans ((hhead i).trans he)
    have hqv : v.pool.entries[e].isQueued = true := by
      rw [htv, State.noted_eq] at ht
      exact HoldEntry.isQueued_of_flagged ht
    exact ⟨i, State.budgetWait_congr hpool hbudget hev hqv ((hcondition i).trans hwaits),
      (hhead i).trans he⟩
  · rw [htv]
    exact (hnoted e).mpr (.inl (hlost e hs (hqueued e ▸ hq)))
  · have ht : t.stats.live[i].budgetWaits = v.stats.live[i].budgetWaits := congrFun hcounts i
    have hs : u.stats.live[i].budgetWaits = s.stats.live[i].budgetWaits := congrFun hmove.budgetWaits i
    rw [ht, hrise, hs]
    simp only [htoNote]

/-- Every event but a reset follows the rule of the count (R97). -/
theorem State.HoldEvent.notesFollow {s t : State} (h : s.HoldEvent t) (hd : t.HeadsDistinct) :
    s.NotesFollow t := by
  induction h with
  | same h =>
    exact .of_carried (.of_pool (congrArg HoldSide.pool h))
      fun i => .inr (congrFun (congrArg HoldSide.budgetWaits h) i)
  | zeroed hlive h => exact .of_carried (.of_pool (congrArg HoldSide.pool h)) fun i => .inl (hlive i)
  | stalled r hr h =>
    exact .of_carried (.of_pool (congrArg HoldSide.pool h))
      fun i => .inr (congrFun (congrArg HoldSide.budgetWaits h) i)
  | @answered s t e r he h =>
    refine .of_carried (fun i => ?_) fun i => .inr (congrFun (congrArg HoldSide.budgetWaits h) i)
    rw [show t.pool = (s.setEntry e .free).pool from congrArg HoldSide.pool h,
      State.setEntry_pool_entries, entries_set]
    split
    · exact .of_not_queued rfl
    · exact .refl _
  | @emptied s t h =>
    refine .of_carried (fun i => ?_) fun i => .inr (congrFun (congrArg HoldSide.budgetWaits h) i)
    rw [show t.pool = HoldPool.empty from congrArg HoldSide.pool h]
    exact .of_not_queued (by simp [HoldPool.empty, HoldEntry.isQueued])
  | staged c x h =>
    exact .of_carried (.of_pool (congrArg HoldSide.pool h))
      fun i => .inr (congrFun (congrArg HoldSide.budgetWaits h) i)
  | committed n hcheck h =>
    exact .of_carried (.of_pool (congrArg HoldSide.pool h))
      fun i => .inr (congrFun (congrArg HoldSide.budgetWaits h) i)
  | moved u v hmove hv hstalled h =>
    have hcounts := congrArg HoldSide.budgetWaits h
    exact .of_move hmove hv hd (congrArg HoldSide.pool h) (congrArg HoldSide.budget h) hcounts
  | @restored s t h ih =>
    obtain ⟨hhead, hstays, hcounted⟩ := ih hd
    exact ⟨hhead, hstays, hcounted⟩

/-- Settles O44: the bin by the ascending boundaries, the counts by what an addition does, and the count of
heads by what an event makes of the hold side. -/
theorem countingRules : Obligations.CountingRules := by
  refine ⟨fun _ t hs j => hs.lt_histogramBin t j, State.countClass_counts, State.countGlobal_counts,
    fun c s t order ht h hreset => ?_⟩
  obtain ⟨hhead, hstays, hcounted⟩ := (exec_holdEvent h hreset).notesFollow ht.headsDistinct
  exact ⟨hhead, hstays, hcounted⟩

end Sys2Proof.Machine


namespace Sys2Proof.Machine

set_option Elab.async false

/-! ## The placement test (R25, R26, R27) -/

theorem State.poolOccupancy_le (s : State) : s.poolOccupancy ≤ 192 := by
  have hle := List.countP_le_length (p := fun x : HoldEntry => !x.isFree) (l := s.pool.entries.toList)
  rwa [Vector.length_toList] at hle

/-- Some entry is FREE exactly where not all 192 are taken (R25). -/
theorem State.poolOccupancy_lt {s : State} :
    s.poolOccupancy < 192 ↔ ∃ e : EntryId, s.pool.entries[e] = .free := by
  have hall := List.countP_eq_length (p := fun x : HoldEntry => !x.isFree) (l := s.pool.entries.toList)
  rw [Vector.length_toList, toList_eq_map_finRange, List.forall_mem_map,
    ← toList_eq_map_finRange] at hall
  have hfull : s.poolOccupancy = 192 ↔ ∀ e : EntryId, s.pool.entries[e] ≠ .free := by
    rw [State.poolOccupancy, hall]
    simp only [List.mem_finRange, forall_const, Bool.not_eq_true', ne_eq, ← HoldEntry.isFree_iff,
      Bool.not_eq_true]
  rw [lt_iff_le_and_ne, ne_eq, hfull]
  simp [s.poolOccupancy_le]

theorem State.freeEntries_pos {s : State} :
    0 < s.freeEntries ↔ ∃ e : EntryId, s.pool.entries[e] = .free := by
  rw [← State.poolOccupancy_lt, State.freeEntries]
  exact Nat.sub_pos_iff_lt

/-- A class falls short of its reservation by what its occupancy is below it (R27). -/
theorem State.shortfall_eq (s : State) (k : ClassId) : s.shortfall k
    = if s.occupancy k < s.budget[k].active.reservation.toNat then
        s.budget[k].active.reservation.toNat - s.occupancy k
      else 0 := by
  unfold State.shortfall State.reservation
  split <;> omega

/-- Unreserved entries are left exactly where the shortfalls and the occupied entries do not take all (R27). -/
theorem State.unreserved_pos {s : State} : 0 < s.unreserved
    ↔ ((List.finRange 16).map (fun k : ClassId =>
        if s.occupancy k < s.budget[k].active.reservation.toNat then
          s.budget[k].active.reservation.toNat - s.occupancy k
        else 0)).sum + s.poolOccupancy < 192 := by
  have hshort : s.shortfall = fun k : ClassId =>
      if s.occupancy k < s.budget[k].active.reservation.toNat then
        s.budget[k].active.reservation.toNat - s.occupancy k
      else 0 := funext s.shortfall_eq
  rw [State.unreserved, State.freeEntries, hshort, Config.poolEntries]
  omega

/-- The lines fit the free lines; a request without lines always does (R27, R30). -/
theorem State.le_freeLines {s : State} {lines : Nat} :
    lines ≤ s.freeLines ↔ s.usedLines + lines ≤ 1024 ∨ lines = 0 := by
  rw [State.freeLines, Config.bufferLines]
  omega

theorem kindWrites_eq_false {kind : Kind} : kindWrites kind = false ↔ kind = .read := by
  cases kind <;> simp [kindWrites]

/-- Settles O30, condition by condition. -/
theorem placementTestConditions : Obligations.PlacementTestConditions := by
  intro s c kind lines
  simp only [State.placementTest, Bool.and_eq_true, Bool.or_eq_true, Bool.not_eq_true', decide_eq_true_eq,
    and_assoc]
  rw [State.freeEntries_pos, State.unreserved_pos, State.le_freeLines, kindWrites_eq_false]
  rfl

end Sys2Proof.Machine


namespace Sys2Proof.Machine

set_option Elab.async false

/-! ## Head conditions and eligibility (R95, R106) -/

theorem Settings.isGate_iff {r : Settings} : r.isGate = true ↔ r.mode = 2 := decide_eq_true_iff

theorem Settings.isMeter_iff {r : Settings} : r.isMeter = true ↔ r.mode = 1 := decide_eq_true_iff

/-- The four global conditions (R106). -/
theorem State.forwardingOpen_iff {s : State} : s.forwardingOpen = true
    ↔ s.arbiter.quiesce = .opened ∧ s.mem.link = .up ∧ 1 ≤ s.mem.available
      ∧ ∃ k : SlotId, s.transit.slots[k].state = .free := by
  simp only [State.forwardingOpen, Bool.and_eq_true, decide_eq_true_eq, State.lowestFreeSlot_isSome,
    and_assoc]

/-- One of the four global conditions fails. -/
theorem State.forwardingOpen_eq_false {s : State} : s.forwardingOpen = false
    ↔ s.arbiter.quiesce ≠ .opened ∨ s.mem.link ≠ .up ∨ s.mem.available = 0
      ∨ ∀ k : SlotId, s.transit.slots[k].state ≠ .free := by
  rw [← Bool.not_eq_true, State.forwardingOpen_iff]
  simp only [not_and_or, not_exists, not_le, Nat.lt_one_iff, ne_eq]

theorem State.headCondition_of_empty {s : State} {c : ClassId} (h : s.pool.queues[c] = []) :
    s.headCondition c = .idle := by
  rw [State.headCondition, State.head?, h]
  rfl

/-- The tests a head is put to, in R95's order. -/
theorem State.headCondition_of_head {s : State} {c : ClassId} {e : EntryId} (h : s.head? c = some e) :
    s.headCondition c = if s.waitListOf e ≠ [] then .orderWait
      else if s.budget[c].active.mode = 2 then .gated
      else if s.budget[c].active.mode = 1 ∧ s.budget[c].account ≤ 0 then .budgetWait
      else if s.forwardingOpen = false then .resourceWait
      else .ready := by
  unfold State.headCondition
  rw [h]
  simp only [Settings.isGate_iff, Bool.and_eq_true, Settings.isMeter_iff, decide_eq_true_eq,
    Bool.not_eq_true']

/-- An entry's wait list is empty exactly where no QUEUED record shows a member. -/
theorem State.waitListOf_eq_nil {s : State} {e : EntryId} : s.waitListOf e = []
    ↔ ∀ r : HoldRecord, s.pool.entries[e] = .queued r → r.waitList = [] := by
  unfold State.waitListOf
  cases s.pool.entries[e] <;> simp

/-- A head is READY exactly where it passes every test (R95). -/
theorem State.eligible_iff {s : State} {c : ClassId} : s.eligible c = true
    ↔ ∃ e : EntryId, s.head? c = some e ∧ s.waitListOf e = [] ∧ s.budget[c].active.mode ≠ 2
      ∧ (s.budget[c].active.mode = 1 → 0 < s.budget[c].account) ∧ s.forwardingOpen = true := by
  rw [State.eligible, decide_eq_true_eq]
  cases hhead : s.head? c with
  | none => simp [State.headCondition, hhead]
  | some e =>
    rw [State.headCondition_of_head hhead]
    simp only [Option.some.injEq, exists_eq_left']
    split_ifs <;> simp_all

/-! ## The choice (R94, R107) -/

/-- At one level the choice is the first eligible class from the level's pointer. -/
theorem State.chooseAt_eq_some {s : State} {l : Fin 4} {c : ClassId} (h : s.chooseAt l = some c) :
    s.eligible c = true ∧ s.level c = l ∧ ∀ d : ClassId, s.eligible d = true → s.level d = l →
      (c - s.arbiter.pointers[l]).val ≤ (d - s.arbiter.pointers[l]).val := by
  rw [State.chooseAt, fromPointer, List.find?_map, Option.map_eq_some_iff] at h
  obtain ⟨i, hi, rfl⟩ := h
  obtain ⟨hchosen, hbefore⟩ := (find?_finRange_eq_some _ i).mp hi
  simp only [Function.comp_apply, Bool.and_eq_true, decide_eq_true_eq] at hchosen
  refine ⟨hchosen.1, hchosen.2, fun d hd hl => ?_⟩
  rw [add_sub_cancel_left]
  by_contra hlt
  have hfalse := hbefore (d - s.arbiter.pointers[l]) (Fin.lt_def.mpr (Nat.not_le.mp hlt))
  simp only [Function.comp_apply, add_sub_cancel, hd, hl, decide_true, Bool.and_self,
    Bool.true_eq_false] at hfalse

/-- No class is chosen at a level exactly where none of that level is eligible. -/
theorem State.chooseAt_eq_none {s : State} {l : Fin 4} :
    s.chooseAt l = none ↔ ∀ d : ClassId, s.eligible d = true → s.level d ≠ l := by
  rw [State.chooseAt, fromPointer, List.find?_map, Option.map_eq_none_iff, List.find?_eq_none]
  simp only [List.mem_finRange, Function.comp_apply, Bool.and_eq_true, decide_eq_true_eq, not_and,
    forall_const]
  refine ⟨fun h d hd => ?_, fun h i => h _⟩
  have := h (d - s.arbiter.pointers[l])
  rw [add_sub_cancel] at this
  exact this hd

theorem mem_levels : ∀ l : Fin 4, l ∈ ([3, 2, 1, 0] : List (Fin 4)) := by decide

/-- The choice is made at the highest level that has one. -/
theorem State.chooseClass_eq_some {s : State} {c : ClassId} (h : s.chooseClass = some c) :
    ∃ l : Fin 4, s.chooseAt l = some c ∧ ∀ l' : Fin 4, l < l' → s.chooseAt l' = none := by
  obtain ⟨higher, l, lower, hlevels, hl, hnone⟩ := List.findSome?_eq_some_iff.mp h
  refine ⟨l, hl, fun l' hlt => hnone l' ?_⟩
  have hdescending : ([3, 2, 1, 0] : List (Fin 4)).Pairwise (fun a b => b < a) := by decide
  have hall := mem_levels l'
  rw [hlevels] at hdescending hall
  obtain ⟨-, hrest, -⟩ := List.pairwise_append.mp hdescending
  rcases List.mem_append.mp hall with hmem | hmem
  · exact hmem
  · rcases List.mem_cons.mp hmem with rfl | hlower
    · exact absurd hlt (lt_irrefl _)
    · exact absurd hlt (lt_asymm ((List.pairwise_cons.mp hrest).1 l' hlower))

theorem State.chooseClass_eq_none {s : State} :
    s.chooseClass = none ↔ ∀ d : ClassId, s.eligible d = false := by
  rw [State.chooseClass, List.findSome?_eq_none_iff]
  simp only [State.chooseAt_eq_none]
  refine ⟨fun h d => Bool.eq_false_iff.mpr fun hd => h _ (mem_levels (s.level d)) d hd rfl, fun h l _ d hd => ?_⟩
  rw [h d] at hd
  cases hd

/-- The chosen class is eligible, and goes before every other by priority and then from the pointer. -/
theorem State.chooseClass_first {s : State} {c : ClassId} (h : s.chooseClass = some c) :
    s.eligible c = true ∧ ∀ d : ClassId, s.eligible d = true →
      (s.level d < s.level c) ∨ (s.level d = s.level c
        ∧ (c - s.arbiter.pointers[s.level c]).val ≤ (d - s.arbiter.pointers[s.level c]).val) := by
  obtain ⟨l, hl, habove⟩ := State.chooseClass_eq_some h
  obtain ⟨heligible, rfl, hfirst⟩ := State.chooseAt_eq_some hl
  refine ⟨heligible, fun d hd => ?_⟩
  rcases lt_trichotomy (s.level d) (s.level c) with hlt | heq | hgt
  · exact .inl hlt
  · exact .inr ⟨heq, hfirst d hd heq⟩
  · exact absurd rfl (State.chooseAt_eq_none.mp (habove _ hgt) d hd)

/-- Settles O36: the tests in order, and the choice level by level. -/
theorem arbiterChoice : Obligations.ArbiterChoice := by
  intro s c
  refine ⟨State.headCondition_of_empty, fun e rest r hqueue he => ?_, ?_, State.chooseClass_first,
    State.chooseClass_eq_none⟩
  · have hhead : s.head? c = some e := by rw [State.head?, hqueue]; rfl
    rw [State.headCondition_of_head hhead, State.waitListOf_of_queued he, ← State.forwardingOpen_eq_false]
    refine ⟨fun hwait => if_pos hwait, fun hwait hmode => ?_, fun hwait hmode haccount => ?_,
      fun hwait hgate hmeter => ⟨fun hclosed => ?_, fun hq hm ha hk => ?_⟩⟩
    · rw [if_neg (not_not.mpr hwait), if_pos hmode]
    · have hgate : s.budget[c].active.mode ≠ 2 := by rw [hmode]; decide
      rw [if_neg (not_not.mpr hwait), if_neg hgate, if_pos ⟨hmode, haccount⟩]
    · have hcredit : ¬ (s.budget[c].active.mode = 1 ∧ s.budget[c].account ≤ 0) := fun ⟨hm, ha⟩ =>
        absurd (hmeter hm) (Int.not_lt.mpr ha)
      rw [if_neg (not_not.mpr hwait), if_neg hgate, if_neg hcredit, if_pos hclosed]
    · have hcredit : ¬ (s.budget[c].active.mode = 1 ∧ s.budget[c].account ≤ 0) := fun ⟨hm, ha⟩ =>
        absurd (hmeter hm) (Int.not_lt.mpr ha)
      have hopen : s.forwardingOpen = true := State.forwardingOpen_iff.mpr ⟨hq, hm, ha, hk⟩
      rw [if_neg (not_not.mpr hwait), if_neg hgate, if_neg hcredit, if_neg (by simp [hopen])]
  · rw [State.eligible_iff]
    simp only [State.waitListOf_eq_nil, State.forwardingOpen_iff]
    rfl

end Sys2Proof.Machine


namespace Sys2Proof.Machine

set_option Elab.async false

/-! ## Period boundaries, natural and forced (R82, R84, R85) -/

/-- What a boundary makes of a class's budget unit: `r` becomes active, under whose cap the account is
replenished (R85). -/
theorem ClassBudget.boundary_eq {b : ClassBudget} {forced : Bool} {r : Settings} {cap : Int} (now : Time)
    (hr : r = if b.pending || forced then b.staged else b.active)
    (hcap : cap = (r.budget.toNat : Int) + (r.burst.toNat : Int)) :
    b.boundary forced now = { staged := b.staged, active := r, pending := false
                              account := min (min b.account cap + (r.budget.toNat : Int)) cap
                              lastBoundary := now } := by
  subst hr hcap
  rfl

/-- What a boundary of class `c` makes of a state, where `b` is what it makes of the class's budget unit. -/
structure State.TookBoundary (s : State) (c : ClassId) (b : ClassBudget) (t : State) : Prop where
  unit : t.budget[c] = b
  units : ∀ i : ClassId, i ≠ c → t.budget[i] = s.budget[i]
  entries : ∀ e : EntryId, t.pool.entries[e].unflagged = s.pool.entries[e].unflagged
  counts : s.CountsKept t (fun _ k => k = .budgetWaits)
  maxima : s.MaximaKept t
  frame : t = { s with
    budget := t.budget
    pool.entries := t.pool.entries
    stats.live := t.stats.live
    alerts.saturation := t.alerts.saturation }

theorem State.takeBoundary_took (s : State) (c : ClassId) (forced : Bool) :
    s.TookBoundary c (s.budget[c].boundary forced s.time) (s.takeBoundary c forced) := by
  have hflags := s.takeBoundary_onlyFlags c forced
  generalize s.takeBoundary c forced = t at hflags
  have hbudget (i : ClassId) : t.budget[i]
      = if i = c then s.budget[c].boundary forced s.time else s.budget[i] := by
    rw [hflags.budget, State.setBudget_budget, budget_set]
  refine ⟨(hbudget c).trans (if_pos rfl), fun i hi => (hbudget i).trans (if_neg hi), hflags.entries,
    hflags.counts.congr rfl rfl rfl rfl, hflags.maxima, ?_⟩
  have hframe := hflags.frame
  rw [hflags.budget]
  exact hframe

/-- Settles O35: a due boundary is taken, and before it is due the state stays. -/
theorem boundaryReplenishes : Obligations.BoundaryReplenishes := by
  intro s c r cap hs hr hcap
  refine ⟨fun hdue => ?_, fun hearly => next_whenRunning hs (if_neg ?_)⟩
  · have htook := s.takeBoundary_took c false
    have hunit : s.budget[c].boundary false s.time = _ :=
      ClassBudget.boundary_eq s.time (by simpa using hr) hcap
    refine ⟨s.takeBoundary c false, next_whenRunning hs (if_pos (decide_eq_true hdue)), ?_⟩
    exact ⟨htook.unit.trans hunit, htook.units, htook.entries, htook.counts, htook.maxima, htook.frame⟩
  · rw [State.reached, decide_eq_true_eq]
    exact Nat.not_le.mpr hearly

/-! ## CLASS_COMMIT and CLASS_APPLY (R79 to R82) -/

/-- A class command's argument names its class. -/
theorem State.classCommand_of_class {s : State} (hidle : s.port.status.state ≠ .running) {b : Byte}
    {n : ClassId} (hb : b.toNat = n.val) (code : Byte) (owner : ClassId → State → State) :
    s.classCommand code b owner
      = owner n { s with port.commandCode := code, port.commandArgument := b } := by
  have hn : Fin.ofNat 16 b.toNat = n := by
    rw [hb]
    exact Fin.ofNat_val_eq_self n
  rw [State.classCommand, State.command_of_not_running hidle, if_pos (by omega), hn]

theorem State.takeCommit_of_fails {s : State} {n : ClassId} {i : Nat} (h : s.failingCheck n = some i)
    (b : Byte) : s.takeCommit b n = s.refuse 4 b .invalidSettings i := by
  rw [State.takeCommit, h]

theorem State.takeCommit_of_passes {s : State} {n : ClassId} (h : s.failingCheck n = none) (b : Byte) :
    s.takeCommit b n
      = (s.setBudget n { s.budget[n] with pending := true }).done 4 b (s.timeToBoundary n) := by
  rw [State.takeCommit, h]

theorem State.takeApply_of_fails {s : State} {n : ClassId} {i : Nat} (h : s.failingCheck n = some i)
    (b : Byte) : s.takeApply b n = s.refuse 5 b .invalidSettings i := by
  rw [State.takeApply, h]

theorem State.takeApply_of_passes {s : State} {n : ClassId} (h : s.failingCheck n = none) (b : Byte) :
    s.takeApply b n = (s.takeBoundary n true).done 5 b 0 := by
  rw [State.takeApply, h]

/-- Settles O56: the first check that fails is the answer of the checks, and where all pass there is none. -/
theorem commitAndApply : Obligations.CommitAndApply := by
  intro s n b r cap hs hidle hb hr hcap
  have hcommit := State.classCommand_of_class hidle hb 4 (State.takeCommit b)
  have happly := State.classCommand_of_class hidle hb 5 (State.takeApply b)
  have hcorrect := s.failingCheck_correct n
  refine ⟨fun i _ hfails hpass => ?_, fun hpass => ?_⟩
  · have hcheck : s.failingCheck n = some i := hcorrect.unique (b := some i) ⟨hfails, hpass⟩
    refine ⟨next_whenRunning hs (hcommit.trans ?_), next_whenRunning hs (happly.trans ?_)⟩
    · exact State.takeCommit_of_fails (s := { s with port.commandCode := 4, port.commandArgument := b })
        hcheck b
    · exact State.takeApply_of_fails (s := { s with port.commandCode := 5, port.commandArgument := b })
        hcheck b
  · have hcheck : s.failingCheck n = none := hcorrect.unique (b := none) hpass
    have hpasses := State.takeApply_of_passes
      (s := { s with port.commandCode := 5, port.commandArgument := b }) hcheck b
    have htook := State.takeBoundary_took { s with port.commandCode := 5, port.commandArgument := b } n true
    have hunit : s.budget[n].boundary true s.time = _ :=
      ClassBudget.boundary_eq s.time (by simpa using hr) hcap
    refine ⟨next_whenRunning hs (hcommit.trans ?_), _, next_whenRunning hs (happly.trans hpasses), ?_⟩
    · exact State.takeCommit_of_passes (s := { s with port.commandCode := 4, port.commandArgument := b })
        hcheck b
    · generalize State.takeBoundary _ n true = t at htook ⊢
      obtain ⟨hunit', hunits, hentries, hcounts, hmaxima, hframe⟩ := htook
      refine ⟨?_, hunits, hentries, hcounts.congr rfl rfl rfl rfl, hmaxima, ?_⟩
      · refine (hunit'.trans hunit).trans ?_
        rw [← hr]
      · rw [hframe]
        rfl

end Sys2Proof.Machine


namespace Sys2Proof.Machine

set_option Elab.async false

/-! ## Arrivals that are accepted (R20, R42, R58, R68) -/

/-- A request taken by an EMPTY intake that R6 lets pass and whose pair is free is offered to the pool. -/
theorem State.arrive_accepts {s : State} {req : FabricRequest} (hempty : s.intake.register = .empty)
    (hup : s.ret.link = .up) (hwell : malformation req = none)
    (hfree : s.openObligations req.source req.tag = 0) : s.arrive req = s.acceptRequest req := by
  have howner := (State.tagOwner?_eq_none hempty).mpr hfree
  unfold State.arrive
  rw [hempty, hup]
  simp only [hwell, howner]

/-- An accepted request as the intake register would hold it, of known kind and class. -/
theorem State.accepted_eq {s : State} {req : FabricRequest} {kind : Kind} {c : ClassId}
    (hk : kindOfCode req.kindCode = some kind)
    (hc : c = s.classify req.source (startPage req.address) kind) : s.accepted req =
      { source := req.source, tag := req.tag, cls := c, kind := kind, address := req.address
        length := req.lengthField.toNat, arrival := s.time, data := req.data, stallStart := s.time
        reported := false } := by
  have hkind : requestKind req = kind := by rw [requestKind, hk]; rfl
  rw [State.accepted, hkind, ← hc]

/-- The pool takes a request that passes the placement test, in its lowest-numbered FREE entry (R20). -/
theorem State.tryPlace_places {s : State} {e : EntryId} {r : HoldRecord}
    (htest : s.placementTest r.cls r.kind r.data.length = true) (he : s.IsLowestFree e) :
    ∃ t : State, s.tryPlace r = some t ∧ s.Placed e r t :=
  ⟨_, (s.tryPlace_eq r).1 e htest he, s.placeIn_placed e r⟩

theorem State.acceptRequest_of_placed {s t : State} {req : FabricRequest} {q : StalledRequest}
    (hq : s.accepted req = q) (ht : s.tryPlace q.toRecord = some t) : s.acceptRequest req = t := by
  rw [State.acceptRequest, hq, ht]

theorem State.acceptRequest_of_refused {s : State} {req : FabricRequest} {q : StalledRequest}
    (hq : s.accepted req = q) (ht : s.tryPlace q.toRecord = none) :
    s.acceptRequest req = s.setIntake (.stalled q) := by
  rw [State.acceptRequest, hq, ht]

/-- Settles O32: the pool takes the request where the placement test passes, and the intake holds it where it
fails. -/
theorem acceptedRequestPlacedOrStalled : Obligations.AcceptedRequestPlacedOrStalled := by
  intro s req kind c hs hempty hup hwell hfree hk hc
  have harrive := State.arrive_accepts hempty hup hwell hfree
  have haccepted := State.accepted_eq (s := s) hk hc
  refine ⟨fun e htest hlowest => ?_, fun htest => next_whenRunning hs (harrive.trans
    (State.acceptRequest_of_refused haccepted ((s.tryPlace_eq _).2 htest)))⟩
  obtain ⟨t, ht, hplaced⟩ := State.tryPlace_places (s := s) (e := e) (r := StalledRequest.toRecord
    { source := req.source, tag := req.tag, cls := c, kind := kind, address := req.address
      length := req.lengthField.toNat, arrival := s.time, data := req.data, stallStart := s.time
      reported := false }) htest hlowest
  obtain ⟨⟨flag, hentry⟩, hothers, hqueue, hqueues, horder, hcounts, hmaxima, hframe⟩ := hplaced
  exact ⟨t, _, next_whenRunning hs (harrive.trans (State.acceptRequest_of_placed haccepted ht)), hentry,
    rfl, s.mem_waitListFor _, hothers, hqueue, hqueues, horder, hcounts, hmaxima, hframe⟩

/-! ## PLACEMENT_RETRY (R20, R69, R72) -/

/-- A placement adds to no class's stall time. -/
theorem State.Placed.stallTime {s t : State} {e : EntryId} {r : HoldRecord} (h : s.Placed e r t)
    (i : ClassId) : t.stats.live[i].stallTime = s.stats.live[i].stallTime :=
  h.counts.kept i .stallTime (by simp)

theorem State.retryPlacement_of_placed {s t : State} {q : StalledRequest}
    (hq : s.intake.register = .stalled q) (ht : s.tryPlace q.toRecord = some t) :
    s.retryPlacement = t.endStall q := by
  rw [State.retryPlacement, hq]
  simp only [ht]

theorem State.retryPlacement_of_refused {s : State} {q : StalledRequest}
    (hq : s.intake.register = .stalled q) (ht : s.tryPlace q.toRecord = none) :
    s.retryPlacement = s := by
  rw [State.retryPlacement, hq]
  simp only [ht]

/-- Settles O33: a placement, and after it the end of the stall episode. -/
theorem stalledRequestRetried : Obligations.StalledRequestRetried := by
  intro s q hs hq
  refine ⟨fun e htest hlowest => ?_, fun htest => next_whenRunning hs
    (State.retryPlacement_of_refused hq ((s.tryPlace_eq q.toRecord).2 htest))⟩
  obtain ⟨t, ht, hplaced⟩ := State.tryPlace_places (r := q.toRecord) htest hlowest
  have hstall := hplaced.stallTime q.cls
  obtain ⟨⟨flag, hentry⟩, hothers, hqueue, hqueues, horder, hcounts, hmaxima, hframe⟩ := hplaced
  have htime : t.time = s.time := by rw [hframe]
  have hended := State.CountsKept.countClass (t.setIntake .empty) q.cls .stallTime (t.elapsed q.stallStart)
  refine ⟨t.endStall q, _, next_whenRunning hs (State.retryPlacement_of_placed hq ht), hentry, rfl,
    s.mem_waitListFor q.toRecord, hothers, hqueue, hqueues, ?_, ?_, ?_, ?_, ?_⟩
  · have h := State.get_countClass (t.setIntake .empty) q.cls q.cls .stallTime .stallTime
      (t.elapsed q.stallStart)
    rw [if_pos ⟨rfl, rfl⟩] at h
    refine h.trans ?_
    rw [State.elapsed, htime, ← hstall]
    rfl
  · have h := State.get_countClass (t.setIntake .empty) q.cls q.cls .stallTime .orderWaits
      (t.elapsed q.stallStart)
    exact (h.trans (if_neg (by simp))).trans horder
  · refine (hcounts.mono fun i k hk => ?_).trans ((hended.mono fun i k hk => ?_).congr rfl rfl rfl rfl)
    · exact hk.imp_right fun ⟨hi, hk⟩ => ⟨hi, .inl hk⟩
    · exact .inr ⟨hk.1, .inr hk.2⟩
  · exact hmaxima.trans (State.MaximaKept.countClass (t.setIntake .empty) q.cls .stallTime _)
  · rw [hframe]
    rfl

end Sys2Proof.Machine


namespace Sys2Proof.Machine

set_option Elab.async false

/-! ## FABRIC_LINK_DOWN (R38, R73, R113, R137, R153) -/

/-- A dropped intake changes its register, the live records and the SATURATION flag (R73). -/
theorem State.dropIntake_frame (s : State) : s.dropIntake = { s with
    intake.register := .empty
    stats.live := s.dropIntake.stats.live
    alerts.saturation := s.dropIntake.alerts.saturation } := by
  unfold State.dropIntake
  split <;> rfl

/-- A dropped STALLED request's episode is charged to its class (R72, R73). -/
theorem State.dropIntake_live (s : State) (c : ClassId) :
    s.dropIntake.stats.live[c] = (match s.intake.register with
      | .stalled q =>
        if q.cls = c then s.stats.live[c].bump .stallTime (s.elapsed q.stallStart) else s.stats.live[c]
      | .empty => s.stats.live[c]
      | .rejecting _ _ _ => s.stats.live[c]) := by
  unfold State.dropIntake
  cases s.intake.register with
  | stalled q =>
    have hlive : (s.endStall q).stats.live[c] = if c = q.cls then
        s.stats.live[q.cls].bump .stallTime (s.elapsed q.stallStart) else s.stats.live[c] :=
      live_set _ _ _ _
    dsimp only
    rw [hlive]
    by_cases hc : q.cls = c
    · subst hc
      simp only [if_true]
    · rw [if_neg hc, if_neg (Ne.symm hc)]
  | empty => rfl
  | rejecting source tag owed => rfl

theorem State.dropIntake_saturation (s : State) :
    s.dropIntake.alerts.saturation = (s.alerts.saturation || (match s.intake.register with
      | .stalled q => saturates s.stats.live[q.cls].stallTime (s.time - q.stallStart).toNat
      | .empty => false
      | .rejecting _ _ _ => false)) := by
  unfold State.dropIntake
  cases s.intake.register with
  | stalled q => rfl
  | empty => exact (Bool.or_false _).symm
  | rejecting source tag owed => exact (Bool.or_false _).symm

/-- The state after a fabric link-down but for the quiesce: everything held or owed is dissolved (R38, R73, R137,
R153). -/
def State.dissolved (s : State) : State :=
  { s.mapSlots SlotState.fabricDown with
    intake.register := .empty
    pool := HoldPool.empty
    ret :=
      { link := .down, channel := .idle, register := s.ret.register.fabricDown, answers := []
        turn := s.ret.turn }
    stats.live := s.dropIntake.stats.live
    stats.globals := s.stats.globals.bump .lostOnFabricDown s.poolOccupancy
    alerts.saturation := s.dropIntake.alerts.saturation
      || saturates s.stats.globals.lostOnFabricDown s.poolOccupancy
    incidents := (s.raise ⟨.fabricLinkDown, none, none, none, none,
      BitVec.ofNat 32 s.ret.answers.length⟩).incidents }

theorem State.dissolved_noFlight (s : State) : s.dissolved.countSlots SlotState.isInFlight = 0 := by
  rw [State.countSlots_eq_zero]
  intro k
  exact (congrArg (fun x : Slot => x.state.isInFlight) (s.slots_mapSlots SlotState.fabricDown k)).trans
    (SlotState.isInFlight_fabricDown _)

theorem State.fabricLinkDown_eq {s : State} (h : s.ret.link = .up) :
    s.fabricLinkDown = s.dissolved.completeQuiesce := by
  have hdropped := s.dropIntake_frame
  unfold State.fabricLinkDown State.dissolved
  rw [h]
  generalize s.dropIntake.stats.live = live at hdropped ⊢
  generalize s.dropIntake.alerts.saturation = flag at hdropped ⊢
  dsimp only
  rw [hdropped, State.raise_eq_of_same_queue (t := s)]
  all_goals rfl

/-- Everything a fabric link-down changes: nothing is in flight, so the quiesce completes (R113, R137). -/
theorem State.fabricLinkDown_frame {s : State} (h : s.ret.link = .up) :
    s.fabricLinkDown = { s.dissolved with
      arbiter.quiesce := s.quiesceAfter s.fabricLinkDown
      port.status.state := if s.arbiter.quiesce = .quiescing then .done else s.port.status.state
      alerts.quiesce := s.alerts.quiesce || decide (s.arbiter.quiesce = .quiescing) } := by
  have hcomplete := State.completeQuiesce_of_noFlight s.dissolved_noFlight
  have hflight : s.fabricLinkDown.countSlots SlotState.isInFlight = 0 := by
    rw [State.fabricLinkDown_eq h, State.countSlots, State.completeQuiesce_transit]
    exact s.dissolved_noFlight
  have hquiesce : s.quiesceAfter s.fabricLinkDown
      = if s.arbiter.quiesce = .quiescing then .quiesced else s.arbiter.quiesce := by
    simp only [State.quiesceAfter, hflight, and_true]
  rw [hquiesce, State.fabricLinkDown_eq h, hcomplete]
  rfl

theorem SlotState.fabricDown_eq (x : SlotState) : x.fabricDown = (match x with
    | .free => .free
    | .inFlight r _ _ => .expired r false
    | .expired r _ => .expired r false
    | .lost _ => .free) := by
  cases x <;> rfl

/-- Settles O26: everything is dissolved, and after that nothing is in flight. -/
theorem fabricLinkDownDissolves : Obligations.FabricLinkDownDissolves := by
  intro s hs hup
  have hframe := State.fabricLinkDown_frame hup
  have hret : s.fabricLinkDown.ret = s.dissolved.ret := by rw [hframe]
  have hpool : s.fabricLinkDown.pool = HoldPool.empty := by rw [hframe]; rfl
  have hslots : s.fabricLinkDown.transit = (s.mapSlots SlotState.fabricDown).transit := by
    rw [hframe]
    rfl
  have hlive : s.fabricLinkDown.stats.live = s.dropIntake.stats.live := by rw [hframe]; rfl
  refine ⟨s.fabricLinkDown, next_whenRunning hs rfl, ?_, fun e => ?_, fun c => ?_, fun k => ?_,
    fun c => ?_, ?_⟩
  · rw [hret, State.dissolved]
    cases s.ret.register <;> rfl
  · simp [hpool, HoldPool.empty]
  · simp [hpool, HoldPool.empty]
  · rw [hslots, s.slots_mapSlots]
    exact ⟨rfl, SlotState.fabricDown_eq _⟩
  · rw [hlive]
    exact s.dropIntake_live c
  · have hflag := s.dropIntake_saturation
    rw [hret, hpool, hslots, hlive]
    refine hframe.trans ?_
    rw [State.dissolved, hflag]
    rfl

end Sys2Proof.Machine


namespace Sys2Proof.Machine

set_option Elab.async false

/-! ## CLASS_DISCARD (R34, R44) -/

/-- The state in which class `n`'s queue is cancelled, on the answer list and counted (R34). -/
def State.discarded (s : State) (n : ClassId) : State :=
  { s with
    pool.entries := (s.pool.queues[n].foldl State.cancelEntry s).pool.entries
    pool.queues := s.pool.queues.set n []
    ret.answers := s.ret.answers ++ s.pool.queues[n].map Owner.entry }.countClass n .cancelled
      s.pool.queues[n].length

/-- A discard, and after it the head conditions, the status and the channel's choice (R97, R150). -/
theorem State.takeDiscard_eq (s : State) (n : ClassId) (b : Byte) : s.takeDiscard b n
    = ((s.discarded n).noteBudgetWaits.done 6 b s.pool.queues[n].length).chooseOffer := by
  rw [State.takeDiscard, State.foldl_cancelEntry_frame]
  rfl

/-- What CLASS_DISCARD makes of a state (R34, R44). -/
structure State.Discards (s : State) (n : ClassId) (b : Byte) (t : State) : Prop where
  entries : ∀ e : EntryId, t.pool.entries[e].unflagged
    = (s.pool.queues[n].foldl State.cancelEntry s).pool.entries[e].unflagged
  queues : t.pool.queues = s.pool.queues.set n []
  cancelled : t.stats.live[n].cancelled = satAdd s.stats.live[n].cancelled s.pool.queues[n].length
  counts : s.CountsKept t (fun i k => k = .budgetWaits ∨ (i = n ∧ k = .cancelled))
  maxima : s.MaximaKept t
  frame : t = { s with
    pool := t.pool
    ret.answers := s.ret.answers ++ s.pool.queues[n].map Owner.entry
    ret.channel := t.channelAfter s.ret.channel
    stats.live := t.stats.live
    alerts.saturation := t.alerts.saturation
    port.status := ⟨.done, 6, b, .none, BitVec.ofNat 16 s.pool.queues[n].length, 0, 0⟩ }

theorem State.takeDiscard_discards (s : State) (n : ClassId) (b : Byte) :
    s.Discards n b (s.takeDiscard b n) := by
  have hflags := (s.discarded n).noteBudgetWaits_onlyFlags
  rw [State.takeDiscard_eq]
  generalize (s.discarded n).noteBudgetWaits = z at hflags ⊢
  have hchannel := State.chooseOffer_ret_channel (z.done 6 b s.pool.queues[n].length) s.ret.channel
    (by rw [hflags.frame]; rfl)
  have hchosen := (State.chooseOffer_eq (z.done 6 b s.pool.queues[n].length)).1
  generalize (z.done 6 b s.pool.queues[n].length).chooseOffer = t at hchannel hchosen ⊢
  have hlive : t.stats.live = z.stats.live := by rw [hchosen]; rfl
  have hpool : t.pool = z.pool := by rw [hchosen]; rfl
  have halerts : t.alerts = z.alerts := by rw [hchosen]; rfl
  have hcounted := State.CountsKept.countClass s n .cancelled s.pool.queues[n].length
  refine ⟨fun e => ?_, ?_, ?_, ?_, fun i => ?_, ?_⟩
  · rw [hpool]
    exact hflags.entries e
  · rw [hpool, hflags.queues]
    rfl
  · rw [hlive]
    refine (hflags.counts.kept n .cancelled (by simp)).trans ?_
    exact (s.get_countClass n n .cancelled .cancelled _).trans (if_pos ⟨rfl, rfl⟩)
  · refine ((hcounted.mono fun i k hk => .inr hk).trans
      ((hflags.counts.mono fun i k hk => .inl hk).congr rfl rfl hlive ?_))
    rw [halerts]
  · rw [hlive]
    exact ((State.MaximaKept.countClass s n .cancelled s.pool.queues[n].length).trans hflags.maxima) i
  · have hz := hflags.frame
    rw [← hchannel, hpool, hlive, halerts]
    refine hchosen.trans ?_
    generalize t.ret.channel = channel
    rw [hz]
    rfl

/-- Settles O57: the queue is cancelled entry by entry, and then the heads, the status and the channel follow. -/
theorem discardCancelsTheQueue : Obligations.DiscardCancelsTheQueue := by
  intro s n b q hs hidle hb hq
  subst hq
  have hdiscard := State.classCommand_of_class hidle hb 6 (State.takeDiscard b)
  obtain ⟨hentries, hqueues, hcancelled, hcounts, hmaxima, hframe⟩ :=
    State.takeDiscard_discards { s with port.commandCode := 6, port.commandArgument := b } n b
  generalize State.takeDiscard b n { s with port.commandCode := 6, port.commandArgument := b } = t
    at hdiscard hentries hqueues hcancelled hcounts hmaxima hframe
  refine ⟨t, next_whenRunning hs hdiscard, fun e => ?_, ?_, fun c' hc => ?_, hcancelled,
    hcounts.congr rfl rfl rfl rfl, hmaxima, hframe⟩
  · rw [hentries, State.foldl_cancelEntry_entry]
    dsimp only
    cases s.pool.entries[e] with
    | free => rfl
    | cancelling r => rfl
    | queued r =>
      dsimp only
      split <;> rfl
  · rw [hqueues, queues_set, if_pos rfl]
  · rw [hqueues, queues_set, if_neg hc]

end Sys2Proof.Machine


namespace Sys2Proof.Machine

set_option Elab.async false

/-! ## FORWARDING (R33, R87, R105, R107, R109, R120, R121) -/

/-- The live record a hold time was offered to, and the others (R158). -/
theorem State.live_offerHold (s : State) (c i : ClassId) (t : Time) :
    (s.offerHold c t).stats.live[i] = if i = c then
      { s.stats.live[c] with maxHold := maxTime s.stats.live[c].maxHold t } else s.stats.live[i] := by
  rw [State.offerHold_stats_live, live_set]

/-- Offering a hold time changes the class's maximum hold time and nothing else of any record (R158). -/
theorem State.get_offerHold (s : State) (c i : ClassId) (t : Time) (k : ClassCounter) :
    (s.offerHold c t).stats.live[i].get k = s.stats.live[i].get k := by
  rw [State.live_offerHold]
  split
  · subst_vars
    cases k <;> rfl
  · rfl

theorem State.saturated_offerHold (s : State) (c i : ClassId) (t : Time) :
    (s.offerHold c t).stats.live[i].saturated = s.stats.live[i].saturated := by
  rw [State.live_offerHold]
  split
  · subst_vars
    rfl
  · rfl

theorem State.maxMemory_offerHold (s : State) (c i : ClassId) (t : Time) :
    (s.offerHold c t).stats.live[i].maxMemory = s.stats.live[i].maxMemory := by
  rw [State.live_offerHold]
  split
  · subst_vars
    rfl
  · rfl

theorem State.CountsKept.offerHold (s : State) (c : ClassId) (t : Time)
    (except : ClassId → ClassCounter → Prop) : s.CountsKept (s.offerHold c t) except where
  kept i k _ := s.get_offerHold c i t k
  grows i k := by rw [State.get_offerHold]
  saturated i h := by rw [State.saturated_offerHold]; exact h
  newlySaturated i h := .inl (by rwa [State.saturated_offerHold] at h)
  alert h := h
  newAlert h := .inl h

/-- What a forwarding writes to the live records and the SATURATION flag (R109 step 7). -/
def State.countForwarding (s : State) (c : ClassId) (r : HoldRecord) : State :=
  ((s.countClass c .forwardedRequests 1).countClass c .forwardedLines r.length).offerHold c
    (s.time - r.arrival)

theorem State.countForwarding_frame (s : State) (c : ClassId) (r : HoldRecord) :
    s.countForwarding c r = { s with
      stats.live := (s.countForwarding c r).stats.live
      alerts.saturation := (s.countForwarding c r).alerts.saturation } := rfl

theorem State.get_countForwarding (s : State) (c i : ClassId) (r : HoldRecord) (k : ClassCounter) :
    (s.countForwarding c r).stats.live[i].get k =
      if i = c ∧ k = .forwardedLines then satAdd (s.stats.live[i].get k) r.length
      else if i = c ∧ k = .forwardedRequests then satAdd (s.stats.live[i].get k) 1
      else s.stats.live[i].get k := by
  rw [State.countForwarding, State.get_offerHold, State.get_countClass, State.get_countClass]
  by_cases hlines : i = c ∧ k = .forwardedLines
  · obtain ⟨rfl, rfl⟩ := hlines
    simp
  · rw [if_neg hlines, if_neg hlines]

theorem State.CountsKept.countForwarding (s : State) (c : ClassId) (r : HoldRecord) :
    s.CountsKept (s.countForwarding c r)
      (fun i k => i = c ∧ (k = .forwardedRequests ∨ k = .forwardedLines)) := by
  have hrequests := (State.CountsKept.countClass s c .forwardedRequests 1).mono
    (q := fun i k => i = c ∧ (k = .forwardedRequests ∨ k = .forwardedLines)) fun _ _ h => h.imp_right .inl
  have hlines := (State.CountsKept.countClass (s.countClass c .forwardedRequests 1) c .forwardedLines
    r.length).mono (q := fun i k => i = c ∧ (k = .forwardedRequests ∨ k = .forwardedLines))
    fun _ _ h => h.imp_right .inr
  exact (hrequests.trans hlines).trans (.offerHold _ c _ _)

theorem State.maxHold_countForwarding (s : State) (c i : ClassId) (r : HoldRecord) :
    (s.countForwarding c r).stats.live[i].maxHold = if i = c then
      maxTime s.stats.live[c].maxHold (s.time - r.arrival) else s.stats.live[i].maxHold := by
  rw [State.countForwarding, State.live_offerHold]
  split
  · simp only [State.maxHold_countClass]
  · simp only [State.maxHold_countClass]

theorem State.maxMemory_countForwarding (s : State) (c i : ClassId) (r : HoldRecord) :
    (s.countForwarding c r).stats.live[i].maxMemory = s.stats.live[i].maxMemory := by
  rw [State.countForwarding, State.maxMemory_offerHold, State.maxMemory_countClass,
    State.maxMemory_countClass]

/-- The state in which the head `e` of class `c` has left the pool for slot `k` and the request channel, before
anything is counted (R109 steps 1 to 6 and 8). -/
def State.moved (s : State) (c : ClassId) (e : EntryId) (r : HoldRecord) (k : SlotId) : State :=
  { s.allocate k (s.slotRecordFor c r) with
    budget := (s.charge c r.length).budget
    pool := (s.removeHead c e).pool
    mem.available := s.mem.available - 1
    arbiter.channel := some
      { source := r.source, kind := r.kind, address := r.address, length := r.length
        tag := downstreamTag k (s.transit.slots[k].epoch + 1), data := r.data } }

/-- A charge changes the budget units only, and by them alone (R87). -/
theorem State.charge_of_budget {s t : State} (h : t.budget = s.budget) (c : ClassId) (length : Nat) :
    t.charge c length = { t with budget := (s.charge c length).budget } := by
  rw [State.charge_budget, ← h, ← State.charge_budget]
  unfold State.charge
  split <;> rfl

/-- A forwarding moves the head, counts it, and derives the head conditions anew (R97, R109). -/
theorem State.forwardHead_eq (s : State) (c : ClassId) (e : EntryId) (r : HoldRecord) (k : SlotId) :
    s.forwardHead c e r k = ((s.moved c e r k).countForwarding c r).noteBudgetWaits := by
  refine congrArg State.noteBudgetWaits ?_
  rw [State.charge_of_budget (s := s)]
  · rfl
  · rfl

/-- The account of the forwarded class is charged in METER mode (R87). -/
theorem State.charge_budget_get (s : State) (c i : ClassId) (length : Nat) :
    (s.charge c length).budget[i] = if i = c then { s.budget[c] with
      account := if s.budget[c].active.mode = 1 then s.budget[c].account - (length : Int)
        else s.budget[c].account } else s.budget[i] := by
  rw [State.charge_budget]
  by_cases hmeter : s.budget[c].active.isMeter = true
  · rw [if_pos hmeter, if_pos (Settings.isMeter_iff.mp hmeter), budget_set]
  · rw [if_neg hmeter, if_neg (fun h => hmeter (Settings.isMeter_iff.mpr h))]
    split
    · subst_vars
      rfl
    · rfl

/-- What forwarding the head `e`, with record `r`, of class `c` into slot `k` makes of a state (R109). -/
structure State.Forwards (s : State) (c : ClassId) (e : EntryId) (r : HoldRecord) (k : SlotId)
    (t : State) : Prop where
  transit : t.transit = (s.allocate k (s.slotRecordFor c r)).transit
  budget : t.budget = (s.charge c r.length).budget
  entries : ∀ i : EntryId, t.pool.entries[i].unflagged
    = if i = e then .free else (s.pool.entries[i].dropMember e).unflagged
  queues : t.pool.queues = s.pool.queues.set c s.pool.queues[c].tail
  requests : t.stats.live[c].forwardedRequests = satAdd s.stats.live[c].forwardedRequests 1
  lines : t.stats.live[c].forwardedLines = satAdd s.stats.live[c].forwardedLines r.length
  maxHold : ∀ i : ClassId, t.stats.live[i].maxHold
    = if i = c then maxTime s.stats.live[c].maxHold (s.time - r.arrival) else s.stats.live[i].maxHold
  maxMemory : ∀ i : ClassId, t.stats.live[i].maxMemory = s.stats.live[i].maxMemory
  counts : s.CountsKept t (fun i k => k = .budgetWaits
    ∨ (i = c ∧ (k = .forwardedRequests ∨ k = .forwardedLines)))
  frame : t = { s with
    transit := t.transit
    budget := t.budget
    pool := t.pool
    mem.available := s.mem.available - 1
    arbiter.channel := some
      { source := r.source, kind := r.kind, address := r.address, length := r.length
        tag := downstreamTag k (s.transit.slots[k].epoch + 1), data := r.data }
    stats.live := t.stats.live
    alerts.saturation := t.alerts.saturation }

theorem State.forwardHead_forwards (s : State) (c : ClassId) (e : EntryId) (r : HoldRecord) (k : SlotId) :
    s.Forwards c e r k (s.forwardHead c e r k) := by
  have hflags := ((s.moved c e r k).countForwarding c r).noteBudgetWaits_onlyFlags
  rw [State.forwardHead_eq]
  generalize ((s.moved c e r k).countForwarding c r).noteBudgetWaits = t at hflags ⊢
  have hget (i : ClassId) (counter : ClassCounter) (h : counter ≠ .budgetWaits) :=
    (hflags.counts.kept i counter h).trans ((s.moved c e r k).get_countForwarding c i r counter)
  refine ⟨?_, hflags.budget, fun i => ?_, hflags.queues, ?_, ?_, fun i => ?_, fun i => ?_, ?_, ?_⟩
  · rw [hflags.frame]
    rfl
  · refine (hflags.entries i).trans ?_
    refine (congrArg HoldEntry.unflagged (s.removeHead_entry c e i)).trans ?_
    split <;> rfl
  · exact (hget c .forwardedRequests (by decide)).trans (if_neg (by simp)) |>.trans (if_pos ⟨rfl, rfl⟩)
  · exact (hget c .forwardedLines (by decide)).trans (if_pos ⟨rfl, rfl⟩)
  · exact (hflags.maxima i).1.trans ((s.moved c e r k).maxHold_countForwarding c i r)
  · exact (hflags.maxima i).2.trans ((s.moved c e r k).maxMemory_countForwarding c i r)
  · have hcounted := State.CountsKept.countForwarding (s.moved c e r k) c r
    exact ((hcounted.mono fun i k h => .inr h).trans (hflags.counts.mono fun i k h => .inl h)).congr
      rfl rfl rfl rfl
  · rw [hflags.frame, State.countForwarding_frame]
    rfl

/-- The arbiter's event, with the channel idle, a class chosen and a slot free (R105, R107). -/
theorem State.forwardChoice_of_chosen {s : State} {c : ClassId} {e : EntryId} {r : HoldRecord} {k : SlotId}
    (hidle : s.arbiter.channel = none) (hc : s.chooseClass = some c)
    (hhead : s.pool.queues[c].head? = some e) (he : s.pool.entries[e] = .queued r)
    (hk : s.IsLowestFreeSlot k) : s.forwardChoice = (s.movePointer c).forwardHead c e r k := by
  have hslot := (s.lowestFreeSlot_eq_some k).mpr hk
  have hfirst : s.head? c = some e := hhead
  unfold State.forwardChoice
  rw [hidle, hc]
  dsimp only
  rw [hfirst, hslot]
  dsimp only
  rw [he]

theorem State.forwardChoice_of_none {s : State} (h : s.chooseClass = none ∨ s.arbiter.channel ≠ none) :
    s.forwardChoice = s := by
  unfold State.forwardChoice
  split
  · rename_i c hidle hc
    exact absurd h (by simp [hidle, hc])
  · rfl

/-- An entry that is FREE but for its flag is FREE. -/
theorem HoldEntry.eq_free_of_unflagged {v : HoldEntry} (h : v.unflagged = .free) : v = .free := by
  cases v with
  | free => rfl
  | queued r => cases h
  | cancelling r => cases h

/-- Settles O37: the pointer moves, and the head is forwarded. -/
theorem forwardingIsOneEvent : Obligations.ForwardingIsOneEvent := by
  intro s hs
  refine ⟨fun c e r k m hidle hc hhead he hk hm => ?_,
    fun h => next_whenRunning hs (State.forwardChoice_of_none h)⟩
  subst hm
  have hforward := State.forwardChoice_of_chosen hidle hc hhead he hk
  obtain ⟨htransit, hbudget, hentries, hqueues, hrequests, hlines, hmaxHold, hmaxMemory, hcounts, hframe⟩ :=
    (s.movePointer c).forwardHead_forwards c e r k
  generalize (s.movePointer c).forwardHead c e r k = t
    at hforward htransit hbudget hentries hqueues hrequests hlines hmaxHold hmaxMemory hcounts hframe
  have hslot (i : SlotId) : t.transit.slots[i] = _ :=
    (congrArg (fun u : TransitTable => u.slots[i]) htransit).trans (slots_set s.transit.slots k i _)
  have hunit (i : ClassId) : t.budget[i] = _ :=
    (congrArg (fun u => u[i]) hbudget).trans ((s.movePointer c).charge_budget_get c i r.length)
  refine ⟨t, next_whenRunning hs hforward, (hslot k).trans (if_pos rfl),
    fun i hi => (hslot i).trans (if_neg hi), by rw [htransit]; rfl, (hunit c).trans (if_pos rfl),
    fun i hi => (hunit i).trans (if_neg hi),
    HoldEntry.eq_free_of_unflagged ((hentries e).trans (if_pos rfl)),
    fun i hi => (hentries i).trans (if_neg hi), ?_, fun i hi => ?_, hrequests, hlines, ?_,
    hcounts.congr rfl rfl rfl rfl, fun i => ⟨hmaxMemory i, fun hi => (hmaxHold i).trans (if_neg hi)⟩,
    fun l => ?_, ?_⟩
  · rw [hqueues, queues_set, if_pos rfl]
    rfl
  · rw [hqueues, queues_set, if_neg hi]
    rfl
  · rw [hmaxHold, if_pos rfl, maxTime_toNat]
    rfl
  · have hpointers : t.arbiter.pointers = s.arbiter.pointers.set (s.level c) (c + 1) := by
      rw [hframe]
      rfl
    rw [hpointers]
    simp only [Fin.getElem_fin, Vector.getElem_set]
    simp [Fin.ext_iff, eq_comm]
  · have hpointers : t.arbiter.pointers = (s.movePointer c).arbiter.pointers := by rw [hframe]
    rw [hpointers, Nat.mul_comm]
    exact hframe

end Sys2Proof.Machine
